-- ==== Sys2Proof/Word.lean ====
section
/-! DEFINITION. The widths of the block (spec/00_scope.md R7, R10, R11; spec/10_state.md R21 to R38): one name per
width the spec names. No arithmetic stands here: clamps, shifts, fields and orders are in Decode.lean and in the files
of Machine. -/

namespace Sys2Proof

/-- A 10-bit unsigned sample, target or device value (R7, R11 `u10`). -/
abbrev U10 := BitVec 10

/-- One serial byte (R95 `u8`). -/
abbrev Byte := BitVec 8

/-- The converter's result word, read as two's complement where it is read (R38 `s16`). -/
abbrev S16 := BitVec 16

/-- The interpolator's intermediates: 32-bit two's complement (R9, R104). -/
abbrev S32 := BitVec 32

/-- A 16-bit frame word; bit 15 goes out first (R81, R83, R84). -/
abbrev FrameWord := BitVec 16

/-- A word of the curve ROM: 16 bits, bit 15 = 0 in every admissible ROM (R62). -/
abbrev RomWord := BitVec 16

/-- A channel number 0..3 (R20). -/
abbrev Channel := Fin 4

/-- A curve number 0..3, as it stands in a ROM address (R61 `u2`). -/
abbrev CurveNo := BitVec 2

/-- A control-point index 0..7, as it stands in a ROM address (R61 `u3`). -/
abbrev PointNo := BitVec 3

/-- The 4-bit code the phase register holds (R21). -/
abbrev PhaseCode := BitVec 4

/-- The four active-low chip-select lines; bit k is channel k's line (R29). -/
abbrev CsMask := BitVec 4

/-- One element per channel (R20, R42). -/
abbrev Lanes (α : Type) := Vector α 4

end Sys2Proof
end

