-- ==== Sys2Proof/Syntax.lean ====
section
/-! DEFINITION. The operations of the block (spec/00_scope.md R2: "an instruction is one operation of the block") and the
two frame formats, one constructor per row of spec/opcode_table.json in the table's order, with the operand forms of
spec/30_encoding.md R95. -/

namespace Sys2Proof

/-- One row of spec/opcode_table.json each. -/
inductive Instr where
  /-- `DISABLE_WP(k)`, phases 0x0 to 0x3 (R178). -/
  | disableWp (k : Channel)
  /-- `REQUEST_SAMPLE`, phase 0x4 (R203). -/
  | requestSample
  /-- `TAKE_SAMPLE`, phase 0x5 (R205). -/
  | takeSample
  /-- `BANK_EVAL`, phase 0x6 (R113). -/
  | bankEval
  /-- `MAYBE_WRITE(0, target[0])`, phase 0x7 (R174, R207). -/
  | maybeWrite0
  /-- `MAYBE_WRITE(1, target[1])`, phase 0x8 (R174, R207). -/
  | maybeWrite1
  /-- `MAYBE_WRITE(2, target[2])`, phase 0x9 (R174, R207). -/
  | maybeWrite2
  /-- `MAYBE_WRITE(3, target[3])`, phase 0xA (R174, R207). -/
  | maybeWrite3
  /-- `ARM_TIMER`, phase 0xB (R208). -/
  | armTimer
  /-- `TAKE_TIMER`, phase 0xC (R209). -/
  | takeTimer
  /-- The reserved phase code 0xD (R217). -/
  | reservedD
  /-- The reserved phase codes 0xE and 0xF; `low` is the code's bit 0 (R217). -/
  | reservedEF (low : BitVec 1)
  /-- `INTERP(c, s)` (R100). -/
  | interp (c : CurveNo) (s : U10)
  /-- `CLAMP10(v)` (R111). -/
  | clamp10 (v : S32)
  /-- `CLAMP_SAMPLE(d)` (R112). -/
  | clampSample (d : S16)
  /-- `SEND_BYTE(b)` (R140). -/
  | sendByte (b : Byte)
  /-- `SEND_FILTER_VALUE(v)` (R147). -/
  | sendFilterValue (v : U10)
  /-- `SEND_WP` (R150). -/
  | sendWp
  /-- `SELECT(k)` (R170). -/
  | select (k : Channel)
  /-- `DESELECT` (R171). -/
  | deselect
  /-- The value frame `{4'b0000, tag, payload}` (R81). -/
  | valueFrame (tag : BitVec 2) (payload : U10)
  /-- The WP frame `{byte0, byte1}` (R83). -/
  | wpFrame (byte0 byte1 : Byte)
  deriving DecidableEq, Repr

/-- The "format" column of spec/opcode_table.json. -/
inductive Format where
  | phase
  | subOperation
  | frame16
  deriving DecidableEq, Repr

end Sys2Proof
end

