-- ==== Sys2Proof/Decode.lean ====
section
/-! DEFINITION. Encodings (spec/30_encoding.md): the phase decoder R87, the value frame R81 and the WP frame R83, each
read and written. The block fetches no instruction words; its phase register selects the next operation, and a frame's
kind is fixed by the operation that emits it (R85, R86), so a code word says which of the three formats it is in. -/

namespace Sys2Proof

/-- R80: a word in one of the formats that stand for a row of the opcode table. -/
inductive CodeWord where
  | phase (code : PhaseCode)
  | valueFrame (w : FrameWord)
  | wpFrame (w : FrameWord)
  deriving DecidableEq, Repr

/-- Why a code word is no row of the table. -/
inductive Reject where
  /-- R81, R90: bits 15:12 of a value frame are always 0. -/
  | padNotZero (pad : BitVec 4)
  deriving DecidableEq, Repr

/-- R81: the value frame word `{4'b0000, tag, payload}`. -/
def valueFrameWord (tag : BitVec 2) (payload : U10) : FrameWord :=
  0#4 ++ tag ++ payload

/-- R83: the WP frame word `{WP_BYTE0, WP_BYTE1}`. -/
def wpFrameWord (byte0 byte1 : Byte) : FrameWord :=
  byte0 ++ byte1

/-- R84: the byte of a frame word sent first, `w[15:8]`. -/
def frameHigh (w : FrameWord) : Byte :=
  w.extractLsb' 8 8

/-- R84: the byte of a frame word sent second, `w[7:0]`. -/
def frameLow (w : FrameWord) : Byte :=
  w.extractLsb' 0 8

/-- R87: the operation each of the sixteen phase codes selects. -/
def decodePhase (code : PhaseCode) : Instr :=
  match code.toNat with
  | 0x0 => .disableWp 0
  | 0x1 => .disableWp 1
  | 0x2 => .disableWp 2
  | 0x3 => .disableWp 3
  | 0x4 => .requestSample
  | 0x5 => .takeSample
  | 0x6 => .bankEval
  | 0x7 => .maybeWrite0
  | 0x8 => .maybeWrite1
  | 0x9 => .maybeWrite2
  | 0xA => .maybeWrite3
  | 0xB => .armTimer
  | 0xC => .takeTimer
  | 0xD => .reservedD
  | _ => .reservedEF (code.extractLsb' 0 1)

/-- R81: the fields of a value frame; a frame whose pad is not 0 is rejected by name (R90). -/
def decodeValueFrame (w : FrameWord) : Except Reject Instr :=
  if w.extractLsb' 12 4 = 0#4 then .ok (.valueFrame (w.extractLsb' 10 2) (w.extractLsb' 0 10))
  else .error (.padNotZero (w.extractLsb' 12 4))

/-- Total: every code word is an instruction or is rejected by name. -/
def decode : CodeWord → Except Reject Instr
  | .phase code => .ok (decodePhase code)
  | .valueFrame w => decodeValueFrame w
  | .wpFrame w => .ok (.wpFrame (frameHigh w) (frameLow w))

/-- R21, R87: the phase code of an operation that has one. -/
def encodePhase : Instr → Option PhaseCode
  | .disableWp k => some (BitVec.ofNat 4 k.val)
  | .requestSample => some 0x4
  | .takeSample => some 0x5
  | .bankEval => some 0x6
  | .maybeWrite0 => some 0x7
  | .maybeWrite1 => some 0x8
  | .maybeWrite2 => some 0x9
  | .maybeWrite3 => some 0xA
  | .armTimer => some 0xB
  | .takeTimer => some 0xC
  | .reservedD => some 0xD
  | .reservedEF low => some (0b111#3 ++ low)
  | .interp _ _ | .clamp10 _ | .clampSample _ | .sendByte _ | .sendFilterValue _ | .sendWp | .select _ | .deselect
  | .valueFrame _ _ | .wpFrame _ _ => none

/-- The code word of an instruction that has one; R87: the sub-operations have no code. -/
def encode : Instr → Option CodeWord
  | .valueFrame tag payload => some (.valueFrame (valueFrameWord tag payload))
  | .wpFrame byte0 byte1 => some (.wpFrame (wpFrameWord byte0 byte1))
  | i => (encodePhase i).map .phase

/-- The "format" column of spec/opcode_table.json. -/
def Instr.format : Instr → Format
  | .disableWp _ | .requestSample | .takeSample | .bankEval | .maybeWrite0 | .maybeWrite1 | .maybeWrite2
  | .maybeWrite3 | .armTimer | .takeTimer | .reservedD | .reservedEF _ => .phase
  | .interp _ _ | .clamp10 _ | .clampSample _ | .sendByte _ | .sendFilterValue _ | .sendWp | .select _
  | .deselect => .subOperation
  | .valueFrame _ _ | .wpFrame _ _ => .frame16

/-- A 16-bit word as the table's two frame rows read it: a value frame where its pad is 0, else a WP frame. R86: the two
kinds share words; assumption 9 gives such a word to the row with the fixed bits. -/
def decodeFrameWord (w : FrameWord) : Instr :=
  match decodeValueFrame w with
  | .ok i => i
  | .error _ => .wpFrame (frameHigh w) (frameLow w)

/-- The instruction this decoder reads from an opcode-table word of `nbits` bits: a phase code in at most one byte (its
bits above bit 3 must be 0), a frame word in two. -/
def decodeTableWord (nbits w : Nat) : Option Instr :=
  if 1 ≤ nbits ∧ nbits ≤ 8 then
    if w < 16 then some (decodePhase (BitVec.ofNat 4 w)) else none
  else if nbits = 16 ∧ w < 65536 then some (decodeFrameWord (BitVec.ofNat 16 w))
  else none

end Sys2Proof
end

