-- ==== Sys2Proof/Machine/Memory.lean ====
section
/-! DEFINITION. The block's one address space: the curve ROM (spec/20_memory.md R60 to R64). It is read-only, it is
word-addressed and every one of its 64 addresses exists, so it is held as the 64 words themselves: two equal ROMs are
equal data, no address is unlisted, and there is no write operation to keep a form. Assumption 4 of the log says so. -/

namespace Sys2Proof

/-- The curve ROM: word `n` stands at the 6-bit address `n` (R61). -/
structure CurveRom where
  words : Vector RomWord 64
  deriving DecidableEq, Repr

/-- R61: a ROM written curve by curve: each curve's eight x words, then its eight y words. -/
def CurveRom.ofCurves (c0 c1 c2 c3 : Vector RomWord 16) : CurveRom where
  words := c0 ++ c1 ++ c2 ++ c3

/-- The axis bit of a ROM address (R61). -/
inductive Axis where
  | x
  | y
  deriving DecidableEq, Repr

/-- R61: axis 0 is x, axis 1 is y. -/
def Axis.bit : Axis → BitVec 1
  | .x => 0#1
  | .y => 1#1

/-- R61: the 6-bit address `{c[1:0], a, p[2:0]}`. -/
def romAddress (c : CurveNo) (a : Axis) (p : PointNo) : BitVec 6 :=
  c ++ a.bit ++ p

/-- R61 `RomRead(c, a, p)`: one whole word; no side effect (R68), no fault (R70). -/
def CurveRom.read (rom : CurveRom) (c : CurveNo) (a : Axis) (p : PointNo) : RomWord :=
  rom.words[(romAddress c a p).toNat]'(romAddress c a p).isLt

/-- R61 `X(c, p)`. -/
def CurveRom.x (rom : CurveRom) (c : CurveNo) (p : PointNo) : RomWord :=
  rom.read c .x p

/-- R61 `Y(c, p)`. -/
def CurveRom.y (rom : CurveRom) (c : CurveNo) (p : PointNo) : RomWord :=
  rom.read c .y p

/-- R64 (a): the curve's first x is 0. -/
def CurveRom.startsAtZero (rom : CurveRom) (c : CurveNo) : Bool :=
  rom.x c 0 == 0#16

/-- R64 (b): x strictly increasing over p in 0..6. -/
def CurveRom.strictlyIncreasing (rom : CurveRom) (c : CurveNo) : Bool :=
  ([0, 1, 2, 3, 4, 5, 6] : List PointNo).all fun p =>
    decide ((rom.x c p).toNat < (rom.x c (p + 1)).toNat)

/-- R64 (c): the curve's last x is `X_MAX`. -/
def CurveRom.endsAt (rom : CurveRom) (xMax : BitVec 15) (c : CurveNo) : Bool :=
  (rom.x c 7).toNat == xMax.toNat

/-- R64 (d) and R90: every word of the curve is in [0, 32767], so its bit 15 is 0. -/
def CurveRom.fitsFifteenBits (rom : CurveRom) (c : CurveNo) : Bool :=
  ([0, 1, 2, 3, 4, 5, 6, 7] : List PointNo).all fun p =>
    decide ((rom.x c p).toNat ≤ 32767) && decide ((rom.y c p).toNat ≤ 32767)

/-- R64: one curve is admissible. -/
def CurveRom.curveAdmissible (rom : CurveRom) (xMax : BitVec 15) (c : CurveNo) : Bool :=
  rom.startsAtZero c && rom.strictlyIncreasing c && rom.endsAt xMax c && rom.fitsFifteenBits c

/-- R64: a ROM is admissible only if all four curves are. -/
def CurveRom.admissible (rom : CurveRom) (xMax : BitVec 15) : Bool :=
  ([0, 1, 2, 3] : List CurveNo).all (rom.curveAdmissible xMax)

end Sys2Proof
end

