-- ==== Sys2Proof/Config.lean ====
section
/-! DEFINITION. The configuration parameters of spec/00_scope.md R8: arguments of the model, fixed for a run (R35, R63).
A `Params` is any choice of them; a `Config` is a choice the model may run: R64 says a model refuses an inadmissible
ROM at configuration time and does not run it, so an inadmissible one is no `Config`. The parameters the spec leaves
OPEN are opaque constants of the reset configuration (assumption 2), so nothing can be proved from their values. -/

namespace Sys2Proof

/-- R8, R26 `CACHE_RESET`: what the last-written registers hold at reset. -/
inductive CacheReset where
  | sentinel
  | zero
  deriving DecidableEq, Repr

/-- R35: the one-bit encoding of `CACHE_RESET`. -/
def CacheReset.bit : CacheReset → BitVec 1
  | .sentinel => 0#1
  | .zero => 1#1

/-- R8: the parameters, in the table's order. `tDuty` (a duration outside the block) and `syncStages` enter no result
(R8); `syncStages` is the depth of the interrupt synchronizer (R241). -/
structure Params where
  curveRom   : CurveRom
  xMax       : BitVec 15
  curveOf    : Lanes CurveNo
  invert     : Bool
  alwaysWrite : Bool
  cacheReset : CacheReset
  cmdTag     : BitVec 2
  wpByte0    : Byte
  wpByte1    : Byte
  tDuty      : Nat
  syncStages : Nat
  deriving DecidableEq, Repr

/-- R64, R8: parameters the model may run: an admissible ROM and at least one synchronizer stage. -/
structure Config extends Params where
  romAdmissible : curveRom.admissible xMax = true := by decide
  hasSyncStage  : 1 ≤ syncStages := by decide
  deriving DecidableEq, Repr

/-- R8 default of `X_MAX`: `1023 << 5`. -/
def defaultXMax : BitVec 15 := 32736#15

/-- R62, R64: some admissible ROM, the straight line y = x in every curve. It only shows that admissible ROMs exist
(Lean asks for that before it accepts an opaque constant); no state of the model holds it. -/
def straightLineRom : CurveRom :=
  CurveRom.ofCurves straightLine straightLine straightLine straightLine
where
  straightLine : Vector RomWord 16 :=
    #v[0, 4676, 9352, 14028, 18704, 23380, 28056, 32736, 0, 4676, 9352, 14028, 18704, 23380, 28056, 32736]

/-- R8: the parameters the spec leaves OPEN. The field defaults are never used as values: see `openParams`. -/
structure OpenParams where
  curveRom : CurveRom := straightLineRom
  cmdTag   : BitVec 2 := 0
  wpByte0  : Byte := 0
  wpByte1  : Byte := 0
  tDuty    : Nat := 0
  romAdmissible : curveRom.admissible defaultXMax = true := by decide
  deriving Inhabited

/-- The OPEN parameters of the reset configuration: no body, so nothing in Lean can evaluate them (assumption 2). Only
the ROM's admissibility is known, as R284 asks of the environment. -/
opaque Config.openParams : OpenParams

/-- R8: the decided defaults, with the OPEN parameters left open. -/
def Config.default : Config where
  curveRom    := Config.openParams.curveRom
  xMax        := defaultXMax
  curveOf     := #v[0, 1, 2, 3]
  invert      := true
  alwaysWrite := false
  cacheReset  := .sentinel
  cmdTag      := Config.openParams.cmdTag
  wpByte0     := Config.openParams.wpByte0
  wpByte1     := Config.openParams.wpByte1
  tDuty       := Config.openParams.tDuty
  syncStages  := 2
  romAdmissible := Config.openParams.romAdmissible
  hasSyncStage  := by decide

end Sys2Proof
end

