-- ==== Sys2Proof/Machine/State.lean ====
section
/-! DEFINITION. Everything spec/10_state.md gives the block, as plain data, with the environment's word (R37), the output
trace (R13), the environment's pending turns (R72, R215) and the result slot of the pure sub-operations. INVENTORY.md lists
every field with its rule and its reset value. -/

namespace Sys2Proof.Machine

/-- R40, R251: a register that may have no value, by the name `F_UNWRITTEN` records. -/
inductive Element where
  | sample
  | target (k : Channel)
  | cacheVal (k : Channel)
  deriving DecidableEq, Repr

/-- R251: what `F_SEND_UNSELECTED` records: the byte of `SEND_BYTE`, the value of `SEND_FILTER_VALUE`, nothing for
`SEND_WP` (R150). -/
inductive SendInfo where
  | byte (b : Byte)
  | value (v : U10)
  | nothing
  deriving DecidableEq, Repr

/-- R251: the model faults. The spec gives a raised fault an effect (R250: it is recorded in `State.fault`, the rest of the
operation is abandoned, the phase is kept, and `RESET` clears it), so an operation that raises one still answers a next
state; no meaning and no step answers `Host.Outcome.fault`. All are safe: they stand for behaviour no source defines. -/
inductive Fault where
  /-- Code 1 `F_ROM_DX0`, raised by `INTERP` (R100). Safe: no `Config` holds a ROM that raises it. -/
  | romDx0 (c : CurveNo) (i : PointNo)
  /-- Code 2 `F_CS_OVERLAP`, raised by `SELECT` (R170). Safe. -/
  | csOverlap (selected requested : Channel)
  /-- Code 3 `F_SEND_UNSELECTED`, raised by the three send operations (R151). Safe. -/
  | sendUnselected (info : SendInfo)
  /-- Code 4 `F_WRITE_BEFORE_WP`, raised by `MAYBE_WRITE` (R174, R179). Safe. -/
  | writeBeforeWp (k : Channel)
  /-- Code 5 `F_BAD_PHASE`, raised by a controller step at a reserved phase (R217). Safe. -/
  | badPhase (code : PhaseCode)
  /-- Code 6 `F_UNWRITTEN`, raised by a read of a register that has no value (R40: "Reading it raises fault F_UNWRITTEN"). Safe. -/
  | unwritten (element : Element)
  deriving DecidableEq, Repr

/-- Why the model does not run. -/
inductive Refusal where
  /-- Raised by `exec`'s arm of an instruction that has no meaning yet (there is none left). Safe. -/
  | notModelled (mnemonic : String)
  /-- Raised by `configure`: R64, R90, "A model refuses an inadmissible ROM at configuration time". Safe. -/
  | inadmissibleRom
  /-- Raised by `configure`: R8 gives `SYNC_STAGES` as a natural number of at least 1. Safe. -/
  | noSynchronizerStage
  deriving DecidableEq, Repr

/-- R31, R32: one interrupt source's enable and pending latch (`adc_ie`, `adc_pend`; `tmr_ie`, `tmr_pend`). -/
structure IrqLatch where
  ie   : Bool
  pend : Bool
  deriving DecidableEq, Repr

/-- R36, R241: one input's synchronizer flops, first stage first, and its edge-detect flop. -/
structure Synchronizer where
  stages : List Bool
  edge   : Bool
  deriving DecidableEq, Repr

/-- R13: the pin events. `true` is level 1. -/
inductive PinEvent where
  | clk (level : Bool)
  | dat (level : Bool)
  | cs (mask : CsMask)
  | adcStart
  | tmrArm
  deriving DecidableEq, Repr

/-- R14, R72: what the environment may do. "Its only steps are" these three. -/
inductive EnvEvent where
  | reset
  | adcDone (d : S16)
  | tmrExpired
  deriving DecidableEq, Repr

/-- R38: what stands on the interrupt input ports and the converter's word port in one clock of the block. -/
structure PortLevels where
  adcDone    : Bool
  adcData    : S16
  tmrExpired : Bool
  deriving DecidableEq, Repr

/-- Which agent moves next (R72, R215). `controller`: the controller, which takes its step if one is enabled. `now e`: the
environment, with `e`, wherever the controller stands. `atRest e`: the eager schedule's turn, the controller until it is
quiescent and then `e`. -/
inductive Turn where
  | controller
  | now (e : EnvEvent)
  | atRest (e : EnvEvent)
  deriving DecidableEq, Repr

/-- What a pure sub-operation returned: an `s32` (`INTERP`) or a `u10` (the clamps). -/
inductive OpResult where
  | s32 (v : S32)
  | u10 (v : U10)
  deriving DecidableEq, Repr

/-- The machine. `cfg` is not state of the block (R35): it is the run's configuration, which no step writes. An `Option` in
`sample`, `target`, `cacheVal` is the spec's own "no value" (R24, R25, R26, R39, R40), in `sel` its `NONE` (R28), in `fault`
its `NONE` (R34). -/
structure State where
  cfg      : Config
  phase    : PhaseCode
  sample   : Option U10
  target   : Lanes (Option U10)
  cacheVld : Lanes Bool
  cacheVal : Lanes (Option U10)
  sel      : Option Channel
  sclk     : Bool
  sdata    : Bool
  adc      : IrqLatch
  tmr      : IrqLatch
  wpDone   : Lanes Bool
  fault    : Option Fault
  adcSync  : Synchronizer
  tmrSync  : Synchronizer
  shreg    : Byte
  bitcnt   : Nat
  adcStart : Bool
  tmrArm   : Bool
  adcData  : S16
  trace    : List PinEvent
  turns    : List Turn
  ret      : Option OpResult
  deriving DecidableEq, Repr

/-- R31, R32, R39: both bits 0. -/
def IrqLatch.reset : IrqLatch where
  ie   := false
  pend := false

/-- R39: every flop 0, `SYNC_STAGES` of them and the edge-detect flop. -/
def Synchronizer.reset (syncStages : Nat) : Synchronizer where
  stages := List.replicate syncStages false
  edge   := false

/-- R26, R39: the valid bit of a last-written value register at reset. -/
def cacheVldAtReset : CacheReset → Bool
  | .sentinel => false
  | .zero => true

/-- R26, R39: the value of a last-written value register at reset. -/
def cacheValAtReset : CacheReset → Option U10
  | .sentinel => none
  | .zero => some 0#10

/-- R39, R280: the power-on reset state of a configuration, with an empty trace. `adcData` is the environment's (R37) and
the spec gives it no value: assumption 3. -/
def State.resetOf (cfg : Config) : State where
  cfg      := cfg
  phase    := 0x0
  sample   := none
  target   := #v[none, none, none, none]
  cacheVld := Vector.replicate 4 (cacheVldAtReset cfg.cacheReset)
  cacheVal := Vector.replicate 4 (cacheValAtReset cfg.cacheReset)
  sel      := none
  sclk     := false
  sdata    := false
  adc      := IrqLatch.reset
  tmr      := IrqLatch.reset
  wpDone   := #v[false, false, false, false]
  fault    := none
  adcSync  := Synchronizer.reset cfg.syncStages
  tmrSync  := Synchronizer.reset cfg.syncStages
  shreg    := 0
  bitcnt   := 0
  adcStart := false
  tmrArm   := false
  adcData  := 0
  trace    := []
  turns    := []
  ret      := none

/-- The machine right after reset, with the default configuration of R8 (assumption 2). -/
def State.reset : State :=
  State.resetOf Config.default

end Sys2Proof.Machine
end

