-- ==== Sys2Proof/Machine/Ops.lean ====
section
/-! DEFINITION. The named operations every meaning is made of: running an operation that may raise (spec/60_exceptions.md
R250), raising, reading a register that may have no value (spec/10_state.md R40), emitting a pin event (spec/00_scope.md
R13), driving the lines, pulsing a request, and arming, latching and taking an interrupt (spec/60_exceptions.md R242 to
R246, R252). -/

namespace Sys2Proof.Machine

/-- R250: how an operation ends: it is done, or it raised a fault, with what it had written so far. -/
inductive Res where
  | done (s : State)
  | raised (f : Fault) (s : State)
  deriving DecidableEq, Repr

/-- R250: a raise abandons the rest of the operation. -/
def Res.andThen (r : Res) (next : State → Res) : Res :=
  match r with
  | .done s => next s
  | .raised f s => .raised f s

/-- R250, R34: `fault <- F(info)` if `fault` = `NONE`; the first fault stays. -/
def State.record (f : Fault) (s : State) : State :=
  { s with fault := s.fault.or (some f) }

/-- R250: the one place where a fault is taken. What was written stays written, what was emitted stays emitted, and the
fault is recorded; the controller step keeps the phase (Machine/Step.lean). -/
def Res.settled : Res → State
  | .done s => s
  | .raised f s => s.record f

/-- An operation answers a next state however it ends (R250, assumption 1). -/
def Res.outcome (r : Res) : Host.Outcome State Fault Refusal :=
  .next r.settled

/-- R40: reading a register that may have no value. "A model must not give it a value, whether zero or one chosen per run.
Reading it raises fault F_UNWRITTEN" (R251 code 6, D37, I19). -/
def readValue (e : Element) : Option U10 → Except Fault U10
  | some v => .ok v
  | none => .error (.unwritten e)

/-- Go on with a value, or raise the fault its computation met. -/
def Res.withValue {α : Type} (v : Except Fault α) (s : State) (next : α → Res) : Res :=
  match v with
  | .ok a => next a
  | .error f => .raised f s

/-- R13 `emit E`. -/
def State.emit (e : PinEvent) (s : State) : State :=
  { s with trace := s.trace ++ [e] }

/-- R140: `emit DAT(l); sdata <- l`. -/
def State.driveDat (l : Bool) (s : State) : State :=
  { s.emit (.dat l) with sdata := l }

/-- R140: `emit CLK(l); sclk <- l`. -/
def State.driveClk (l : Bool) (s : State) : State :=
  { s.emit (.clk l) with sclk := l }

/-- R203: one `ADC_START` pulse; the pulse flop of R36 is 1 only while the pulse is emitted. -/
def State.pulseAdcStart (s : State) : State :=
  { ({ s with adcStart := true }).emit .adcStart with adcStart := false }

/-- R208: one `TMR_ARM` pulse; the pulse flop of R36 is 1 only while the pulse is emitted. -/
def State.pulseTmrArm (s : State) : State :=
  { ({ s with tmrArm := true }).emit .tmrArm with tmrArm := false }

/-- R244: arming clears the pending latch, then sets the enable. -/
def IrqLatch.arm (l : IrqLatch) : IrqLatch :=
  { ({ l with pend := false }) with ie := true }

/-- R242, R243, R246: an event sets the pending latch only while the source is enabled; otherwise it is dropped. -/
def IrqLatch.latch (l : IrqLatch) : IrqLatch :=
  if l.ie then { l with pend := true } else l

/-- R245, R252: taking an event clears the enable and the pending latch. Nothing is saved, no mode changes, there is no
vector and no return (R253): this is all of event entry but the phase, which the wait phase itself selects. -/
def IrqLatch.take (l : IrqLatch) : IrqLatch :=
  { ({ l with ie := false }) with pend := false }

/-- A pure sub-operation's return value (assumption 5). -/
def State.withResult (r : OpResult) (s : State) : State :=
  { s with ret := some r }

end Sys2Proof.Machine
end

