-- ==== Sys2Proof/Machine/Operands.lean ====
section
/-! DEFINITION. Operand assembly: the chip-select mask (spec/30_encoding.md R89), the payload and the two bytes of a value
frame (spec/41_serial_bus.md R148, R149), the code of a fault (spec/60_exceptions.md R251) and the integer arithmetic of
spec/00_scope.md R11. -/

namespace Sys2Proof.Machine

/-- R29, R89: the four active-low lines as a function of `sel`. -/
def csMask : Option Channel → CsMask
  | none => 0b1111
  | some 0 => 0b1110
  | some 1 => 0b1101
  | some 2 => 0b1011
  | some 3 => 0b0111

/-- R29: the chip-select outputs. -/
def State.csN (s : State) : CsMask :=
  csMask s.sel

/-- R148: `v' = 1023 - v` when `INVERT` is true, and `v' = v` otherwise. -/
def payloadOf (cfg : Config) (v : U10) : U10 :=
  if cfg.invert then 1023#10 - v else v

/-- R149: `b1 = {4'b0000, CMD_TAG, v'[9:8]}`. -/
def valueByteHigh (cfg : Config) (payload : U10) : Byte :=
  0#4 ++ cfg.cmdTag ++ payload.extractLsb' 8 2

/-- R149: `b2 = v'[7:0]`. -/
def valueByteLow (payload : U10) : Byte :=
  payload.extractLsb' 0 8

/-- R11 `clamp(v, lo, hi)`. -/
def clampInt (v lo hi : Int) : Int :=
  if v < lo then lo else if hi < v then hi else v

/-- R251: the code of a fault. -/
def Fault.code : Fault → Nat
  | .romDx0 _ _ => 1
  | .csOverlap _ _ => 2
  | .sendUnselected _ => 3
  | .writeBeforeWp _ => 4
  | .badPhase _ => 5
  | .unwritten _ => 6

end Sys2Proof.Machine
end

