-- ==== Sys2Proof/Machine/Flags.lean ====
section
/-! DEFINITION. The block's combinational conditions: the change-detect gate (spec/42_chip_select.md R175), the enable of a
controller step (spec/43_controller.md R201), quiescence (R215), the UpdateController state (spec/10_state.md R22) and the
successor of a phase (R23). The block has no condition codes (R41). -/

namespace Sys2Proof.Machine

/-- R175: `changed(k, v) = ALWAYS_WRITE or (cache_vld[k] = 0) or (cache_val[k] ≠ v)`, read left to right, so `cache_val[k]`
is read only when the two other conditions fail (R40: "none reads cache_val[k] while cache_vld[k] = 0"). -/
def State.changed (k : Channel) (v : U10) (s : State) : Except Fault Bool :=
  if s.cfg.alwaysWrite then .ok true
  else if s.cacheVld[k] = false then .ok true
  else
    match readValue (.cacheVal k) s.cacheVal[k] with
    | .ok old => .ok (decide (old ≠ v))
    | .error f => .error f

/-- R21: the phase `WAIT_ADC`. -/
def phaseWaitAdc : PhaseCode := 0x5

/-- R21: the phase `WAIT_TMR`. -/
def phaseWaitTmr : PhaseCode := 0xC

/-- R201 `enabled(s)`. -/
def State.enabled (s : State) : Bool :=
  s.fault.isNone &&
    (if s.phase = phaseWaitAdc then s.adc.pend else if s.phase = phaseWaitTmr then s.tmr.pend else true)

/-- R215: no controller step is enabled. -/
def State.quiescent (s : State) : Bool :=
  !s.enabled

/-- R22, R88: the UpdateController state, a function of the phase; the three reserved codes have none. -/
inductive UpdateState where
  | sleeping
  | waitingForRead
  | writingValues
  deriving DecidableEq, Repr

/-- R88: the 2-bit code; 2'b11 is never produced. -/
def UpdateState.code : UpdateState → BitVec 2
  | .sleeping => 0b00
  | .waitingForRead => 0b01
  | .writingValues => 0b10

/-- R21: the table's third column. -/
def updateStateOf (p : PhaseCode) : Option UpdateState :=
  if p.toNat ≤ 4 then some .sleeping
  else if p = phaseWaitAdc then some .waitingForRead
  else if p.toNat ≤ 0xC then some .writingValues
  else none

/-- R22 `st`: derived from the phase, never stored. -/
def State.st (s : State) : Option UpdateState :=
  updateStateOf s.phase

/-- R23, R201: the successor table. A reserved code has no successor; a step there raises and keeps it (R217). -/
def nextPhase (p : PhaseCode) : PhaseCode :=
  match p.toNat with
  | 0x0 => 0x1
  | 0x1 => 0x2
  | 0x2 => 0x3
  | 0x3 => 0x4
  | 0x4 => 0x5
  | 0x5 => 0x6
  | 0x6 => 0x7
  | 0x7 => 0x8
  | 0x8 => 0x9
  | 0x9 => 0xA
  | 0xA => 0xB
  | 0xB => 0xC
  | 0xC => 0x4
  | _ => p

end Sys2Proof.Machine
end

