-- ==== Sys2Proof/Machine/Serial.lean ====
section
/-! DEFINITION. The serial transmitter (spec/41_serial_bus.md). The shift register and the bit counter of spec/10_state.md R36
are shifted as a byte goes out; both are 0 again when it is out, so they hold nothing between steps. -/

namespace Sys2Proof.Machine

/-- R141: one bit cell, `DAT(bit)`, `CLK(1)`, `CLK(0)`, of the shift register's top bit. -/
def bitCell (s : State) : State :=
  let out := ((s.driveDat s.shreg.msb).driveClk true).driveClk false
  { out with shreg := s.shreg <<< 1, bitcnt := s.bitcnt - 1 }

/-- R140: n cells. -/
def shiftOut : Nat → State → State
  | 0, s => s
  | n + 1, s => shiftOut n (bitCell s)

/-- R140 `SEND_BYTE(b)`, most significant bit first; R151: raises and emits nothing while no channel is selected. -/
def sendByte (b : Byte) (s : State) : Res :=
  match s.sel with
  | none => .raised (.sendUnselected (.byte b)) s
  | some _ => .done (shiftOut 8 { s with shreg := b, bitcnt := 8 })

/-- R84: a frame word goes out as its high byte and then its low byte. -/
def sendFrame (w : FrameWord) (s : State) : Res :=
  (sendByte (frameHigh w) s).andThen (sendByte (frameLow w))

/-- R147 `SEND_FILTER_VALUE(v)`. -/
def sendFilterValue (v : U10) (s : State) : Res :=
  match s.sel with
  | none => .raised (.sendUnselected (.value v)) s
  | some _ =>
    let payload := payloadOf s.cfg v
    (sendByte (valueByteHigh s.cfg payload) s).andThen (sendByte (valueByteLow payload))

/-- R150 `SEND_WP`. -/
def sendWp (s : State) : Res :=
  match s.sel with
  | none => .raised (.sendUnselected .nothing) s
  | some _ => (sendByte s.cfg.wpByte0 s).andThen (sendByte s.cfg.wpByte1)

/-- `SEND_BYTE` (R140). -/
def execSendByte (b : Byte) (s : State) : Host.Outcome State Fault Refusal :=
  (sendByte b s).outcome

/-- `SEND_FILTER_VALUE` (R147). -/
def execSendFilterValue (v : U10) (s : State) : Host.Outcome State Fault Refusal :=
  (sendFilterValue v s).outcome

/-- `SEND_WP` (R150). -/
def execSendWp (s : State) : Host.Outcome State Fault Refusal :=
  (sendWp s).outcome

/-- A value frame (R81) is transmitted as R84 says (assumption 6). -/
def execValueFrame (tag : BitVec 2) (payload : U10) (s : State) : Host.Outcome State Fault Refusal :=
  (sendFrame (valueFrameWord tag payload) s).outcome

/-- A WP frame (R83) is transmitted as R84 says (assumption 6). -/
def execWpFrame (byte0 byte1 : Byte) (s : State) : Host.Outcome State Fault Refusal :=
  (sendFrame (wpFrameWord byte0 byte1) s).outcome

end Sys2Proof.Machine
end

