-- ==== Sys2Proof/Machine/ChipSelect.lean ====
section
/-! DEFINITION. The chip-select arbiter and the device channels (spec/42_chip_select.md). -/

namespace Sys2Proof.Machine

/-- R170 `SELECT(k)`: legal only from idle; one event drives all four lines. -/
def select (k : Channel) (s : State) : Res :=
  match s.sel with
  | some selected => .raised (.csOverlap selected k) s
  | none => .done (({ s with sel := some k }).emit (.cs (csMask (some k))))

/-- R171 `DESELECT`: permitted in every state. -/
def deselect (s : State) : Res :=
  .done (({ s with sel := none }).emit (.cs (csMask none)))

/-- R176: the cache holds `v` and is valid. -/
def State.cacheWrite (k : Channel) (v : U10) (s : State) : State :=
  { s with cacheVal := s.cacheVal.set k (some v), cacheVld := s.cacheVld.set k true }

/-- R174 `MAYBE_WRITE(k, v)`; the value compared and cached is `v`, not the inverted payload. -/
def maybeWrite (k : Channel) (v : U10) (s : State) : Res :=
  if s.wpDone[k] = false then .raised (.writeBeforeWp k) s
  else
    Res.withValue (s.changed k v) s fun isChanged =>
      if isChanged then
        (((select k s).andThen (sendFilterValue v)).andThen deselect).andThen fun s => .done (s.cacheWrite k v)
      else .done s

/-- R178 `DISABLE_WP(k)`. -/
def disableWp (k : Channel) (s : State) : Res :=
  (((select k s).andThen sendWp).andThen deselect).andThen fun s =>
    .done { s with wpDone := s.wpDone.set k true }

/-- R207: the operation of phase `WRITEk`, `MAYBE_WRITE(k, target[k])`. The argument is read before the call, so a target
with no value raises before anything else is looked at (assumption 7). -/
def maybeWriteTarget (k : Channel) (s : State) : Res :=
  Res.withValue (readValue (.target k) s.target[k]) s fun v => maybeWrite k v s

/-- `SELECT` (R170). -/
def execSelect (k : Channel) (s : State) : Host.Outcome State Fault Refusal :=
  (select k s).outcome

/-- `DESELECT` (R171). -/
def execDeselect (s : State) : Host.Outcome State Fault Refusal :=
  (deselect s).outcome

/-- `DISABLE_WP` (R178). -/
def execDisableWp (k : Channel) (s : State) : Host.Outcome State Fault Refusal :=
  (disableWp k s).outcome

/-- `MAYBE_WRITE` at phase `WRITE0` (R174, R207). -/
def execMaybeWrite0 (s : State) : Host.Outcome State Fault Refusal :=
  (maybeWriteTarget 0 s).outcome

/-- `MAYBE_WRITE` at phase `WRITE1` (R174, R207). -/
def execMaybeWrite1 (s : State) : Host.Outcome State Fault Refusal :=
  (maybeWriteTarget 1 s).outcome

/-- `MAYBE_WRITE` at phase `WRITE2` (R174, R207). -/
def execMaybeWrite2 (s : State) : Host.Outcome State Fault Refusal :=
  (maybeWriteTarget 2 s).outcome

/-- `MAYBE_WRITE` at phase `WRITE3` (R174, R207). -/
def execMaybeWrite3 (s : State) : Host.Outcome State Fault Refusal :=
  (maybeWriteTarget 3 s).outcome

end Sys2Proof.Machine
end

