-- ==== Sys2Proof/Machine/Interpolator.lean ====
section
/-! DEFINITION. The interpolator, the two clamps and the calibration bank (spec/40_interpolator.md). The intermediates are
32-bit two's complement, as R9 and R104 fix them. -/

namespace Sys2Proof.Machine

/-- R101: `xs <- zext_16(s) << 5`. -/
def scaleSample (v : U10) : BitVec 16 :=
  v.zeroExtend 16 <<< 5

/-- R102: `i = count { k in 1..6 : X(c,k) < xs }`. -/
def segmentIndex (rom : CurveRom) (c : CurveNo) (xs : BitVec 16) : PointNo :=
  BitVec.ofNat 3 (([1, 2, 3, 4, 5, 6] : List PointNo).countP fun k => decide ((rom.x c k).toNat < xs.toNat))

/-- R103: the three-comparison search, which R103 says gives the same index on an admissible ROM. -/
def segmentSearch (rom : CurveRom) (c : CurveNo) (xs : BitVec 16) : PointNo :=
  if (rom.x c 4).toNat < xs.toNat then
    if (rom.x c 6).toNat < xs.toNat then 6 else if (rom.x c 5).toNat < xs.toNat then 5 else 4
  else if (rom.x c 2).toNat < xs.toNat then
    if (rom.x c 3).toNat < xs.toNat then 3 else 2
  else if (rom.x c 1).toNat < xs.toNat then 1 else 0

/-- R100: the named intermediates of one evaluation. -/
structure Segment where
  i     : PointNo
  t     : S32
  dx    : S32
  dy    : S32
  p     : S32
  delta : S32
  r     : S32
  deriving DecidableEq, Repr

/-- R100, R104, R105: the segment arithmetic. `BitVec.sdiv` truncates toward zero, as R105 asks. -/
def evalSegment (rom : CurveRom) (c : CurveNo) (v : U10) : Segment :=
  let xs := scaleSample v
  let i := segmentIndex rom c xs
  let t := xs.zeroExtend 32 - (rom.x c i).zeroExtend 32
  let dx := (rom.x c (i + 1)).zeroExtend 32 - (rom.x c i).zeroExtend 32
  let dy := (rom.y c (i + 1)).zeroExtend 32 - (rom.y c i).zeroExtend 32
  let p := dy * t
  let delta := p.sdiv dx
  { i, t, dx, dy, p, delta, r := (rom.y c i).zeroExtend 32 + delta }

/-- R100 `INTERP(c, s)`: raises `F_ROM_DX0(c, i)` where `dx` = 0, else `r5 = r >>a 5` (R106). -/
def interp (rom : CurveRom) (c : CurveNo) (v : U10) : Except Fault S32 :=
  let g := evalSegment rom c v
  if g.dx = 0#32 then .error (.romDx0 c g.i) else .ok (g.r.sshiftRight 5)

/-- R111 `CLAMP10(v)`. -/
def clamp10 (v : S32) : U10 :=
  BitVec.ofInt 10 (clampInt v.toInt 0 1023)

/-- R112 `CLAMP_SAMPLE(d)`: the word is sign-extended before it is clamped. -/
def clampSample (d : S16) : U10 :=
  BitVec.ofInt 10 (clampInt (d.signExtend 32).toInt 0 1023)

/-- R113: the value a lane writes on an admissible ROM. -/
def laneTarget (cfg : Config) (k : Channel) (v : U10) : U10 :=
  clamp10 ((evalSegment cfg.curveRom cfg.curveOf[k] v).r.sshiftRight 5)

/-- R113: one lane, `target[k] <- CLAMP10(INTERP(CURVE_OF[k], sample))`. -/
def bankLane (k : Channel) (v : U10) (s : State) : Res :=
  Res.withValue (interp s.cfg.curveRom s.cfg.curveOf[k] v) s fun r =>
    .done { s with target := s.target.set k (some (clamp10 r)) }

/-- R113 `BANK_EVAL`: the four lanes in the pseudocode's order. -/
def bankEval (s : State) : Res :=
  Res.withValue (readValue .sample s.sample) s fun v =>
    (((bankLane 0 v s).andThen (bankLane 1 v)).andThen (bankLane 2 v)).andThen (bankLane 3 v)

/-- `INTERP` (R100), returning its `s32` result. -/
def execInterp (c : CurveNo) (v : U10) (s : State) : Host.Outcome State Fault Refusal :=
  (Res.withValue (interp s.cfg.curveRom c v) s fun r => .done (s.withResult (.s32 r))).outcome

/-- `CLAMP10` (R111), returning its `u10` result. -/
def execClamp10 (v : S32) (s : State) : Host.Outcome State Fault Refusal :=
  .next (s.withResult (.u10 (clamp10 v)))

/-- `CLAMP_SAMPLE` (R112), returning its `u10` result. -/
def execClampSample (d : S16) (s : State) : Host.Outcome State Fault Refusal :=
  .next (s.withResult (.u10 (clampSample d)))

/-- `BANK_EVAL` (R113). -/
def execBankEval (s : State) : Host.Outcome State Fault Refusal :=
  (bankEval s).outcome

end Sys2Proof.Machine
end

