-- ==== Sys2Proof/Machine/Controller.lean ====
section
/-! DEFINITION. The controller's own four operations and the reserved phases (spec/43_controller.md). Whether a controller step
may run one is the step's question (R201 `enabled`, Machine/Step.lean); here is what the operation does. -/

namespace Sys2Proof.Machine

/-- R203 `REQUEST_SAMPLE`: clear pending, enable, pulse, in that order (R244, R289), and wait. -/
def execRequestSample (s : State) : Host.Outcome State Fault Refusal :=
  .next { ({ s with adc := s.adc.arm }).pulseAdcStart with phase := phaseWaitAdc }

/-- R205 `TAKE_SAMPLE`: the converter's word as it stands now (R290). -/
def execTakeSample (s : State) : Host.Outcome State Fault Refusal :=
  .next { s with adc := s.adc.take, sample := some (clampSample s.adcData), phase := 0x6 }

/-- R208 `ARM_TIMER`. -/
def execArmTimer (s : State) : Host.Outcome State Fault Refusal :=
  .next { ({ s with tmr := s.tmr.arm }).pulseTmrArm with phase := phaseWaitTmr }

/-- R209 `TAKE_TIMER`. -/
def execTakeTimer (s : State) : Host.Outcome State Fault Refusal :=
  .next { s with tmr := s.tmr.take, phase := 0x4 }

/-- R217: a reserved phase code raises `F_BAD_PHASE(code)` and changes no other state. -/
def reservedPhase (code : PhaseCode) (s : State) : Res :=
  .raised (.badPhase code) s

/-- Phase code 0xD (R217). -/
def execReservedD (s : State) : Host.Outcome State Fault Refusal :=
  (reservedPhase 0xD s).outcome

/-- Phase codes 0xE and 0xF (R217). -/
def execReservedEF (low : BitVec 1) (s : State) : Host.Outcome State Fault Refusal :=
  (reservedPhase (0b111#3 ++ low) s).outcome

end Sys2Proof.Machine
end

