-- ==== Sys2Proof/Machine/Dispatch.lean ====
section
/-! DEFINITION. The meaning of every instruction: one arm per constructor of Instr. -/

namespace Sys2Proof.Machine

def exec (i : Instr) (s : State) : Host.Outcome State Fault Refusal :=
  match i with
  | .disableWp k => Sys2Proof.Machine.execDisableWp k s
  | .requestSample => Sys2Proof.Machine.execRequestSample s
  | .takeSample => Sys2Proof.Machine.execTakeSample s
  | .bankEval => Sys2Proof.Machine.execBankEval s
  | .maybeWrite0 => Sys2Proof.Machine.execMaybeWrite0 s
  | .maybeWrite1 => Sys2Proof.Machine.execMaybeWrite1 s
  | .maybeWrite2 => Sys2Proof.Machine.execMaybeWrite2 s
  | .maybeWrite3 => Sys2Proof.Machine.execMaybeWrite3 s
  | .armTimer => Sys2Proof.Machine.execArmTimer s
  | .takeTimer => Sys2Proof.Machine.execTakeTimer s
  | .reservedD => Sys2Proof.Machine.execReservedD s
  | .reservedEF low => Sys2Proof.Machine.execReservedEF low s
  | .interp c v => Sys2Proof.Machine.execInterp c v s
  | .clamp10 v => Sys2Proof.Machine.execClamp10 v s
  | .clampSample d => Sys2Proof.Machine.execClampSample d s
  | .sendByte b => Sys2Proof.Machine.execSendByte b s
  | .sendFilterValue v => Sys2Proof.Machine.execSendFilterValue v s
  | .sendWp => Sys2Proof.Machine.execSendWp s
  | .select k => Sys2Proof.Machine.execSelect k s
  | .deselect => Sys2Proof.Machine.execDeselect s
  | .valueFrame tag payload => Sys2Proof.Machine.execValueFrame tag payload s
  | .wpFrame byte0 byte1 => Sys2Proof.Machine.execWpFrame byte0 byte1 s

end Sys2Proof.Machine
end

