-- ==== Sys2Proof/Machine/Environment.lean ====
section
/-! DEFINITION. The environment's steps (spec/20_memory.md R72): the events `ADC_DONE`, `TMR_EXPIRED` (spec/60_exceptions.md R242,
R243) and `RESET` (spec/70_reset_and_hazards.md R280), the interrupt synchronizer in front of the first two (R241), and
configuration (spec/20_memory.md R64). -/

namespace Sys2Proof.Machine

/-- R242 `ADC_DONE(d)`: the word always changes; the completion is latched only while enabled (R246). -/
def adcDoneEvent (d : S16) (s : State) : State :=
  { s with adcData := d, adc := s.adc.latch }

/-- R243 `TMR_EXPIRED`. -/
def tmrExpiredEvent (s : State) : State :=
  { s with tmr := s.tmr.latch }

/-- R280 `RESET`: every state element of the block takes its reset value and the three events are appended to the trace; the
environment's word and turns and the configuration stay. -/
def resetEvent (s : State) : State :=
  { State.resetOf s.cfg with
    adcData := s.adcData
    turns := s.turns
    trace := s.trace ++ [.cs 0b1111, .clk false, .dat false] }

/-- R241: the synchronized signal, the last flop of the chain. -/
def Synchronizer.output (z : Synchronizer) : Bool :=
  z.stages.getLast?.getD false

/-- R241: one clock: the input enters the first flop, every flop takes the one before it, and the edge-detect flop takes the
synchronized signal as it was. -/
def Synchronizer.clock (level : Bool) (z : Synchronizer) : Synchronizer where
  stages := (level :: z.stages).dropLast
  edge   := z.output

/-- R241: a rising edge of the synchronized signal. -/
def Synchronizer.rising (z : Synchronizer) : Bool :=
  z.output && !z.edge

/-- R241: "One rising edge of the synchronized signal is one event": the events of one clock, `ADC_DONE` with the word then
on the port. -/
def risingEvents (adcSync tmrSync : Synchronizer) (word : S16) : List EnvEvent :=
  (if adcSync.rising then [.adcDone word] else []) ++ (if tmrSync.rising then [.tmrExpired] else [])

/-- R241, below the level of R6 (assumption 11): one clock of both synchronizers with these levels on the input ports. It is
no step: each rising edge becomes one event in the schedule, and that event is an environment step of its own (R72). -/
def State.clockPorts (p : PortLevels) (s : State) : State :=
  let adcSync := s.adcSync.clock p.adcDone
  let tmrSync := s.tmrSync.clock p.tmrExpired
  { s with
    adcSync := adcSync
    tmrSync := tmrSync
    turns := s.turns ++ (risingEvents adcSync tmrSync p.adcData).map .now }

/-- R72: one environment step. -/
def deliver (e : EnvEvent) (s : State) : State :=
  match e with
  | .reset => resetEvent s
  | .adcDone d => adcDoneEvent d s
  | .tmrExpired => tmrExpiredEvent s

/-- R93: a stimulus script under the eager schedule of R215: each line's event at the first quiescent state after the line
before it. -/
def State.withScript (s : State) (lines : List EnvEvent) : State :=
  { s with turns := lines.map .atRest }

/-- R64, R90, R284: power-on with these parameters. A model "refuses an inadmissible ROM at configuration time. It does not
run it." -/
def configure (p : Params) : Host.Outcome State Fault Refusal :=
  if rom : p.curveRom.admissible p.xMax = true then
    if sync : 1 ≤ p.syncStages then
      .next (State.resetOf { toParams := p, romAdmissible := rom, hasSyncStage := sync })
    else .refused .noSynchronizerStage
  else .refused .inadmissibleRom

end Sys2Proof.Machine
end

