-- ==== Sys2Proof/Machine/Fetch.lean ====
section
/-! DEFINITION. Selecting the next operation (spec/30_encoding.md R87), moving the phase on (spec/43_controller.md R201), and
placing a chosen operation where the next step runs it. -/

namespace Sys2Proof.Machine

/-- R87: the phase code selects the controller's next operation; it is fetched from no memory (R75). -/
def fetch (s : State) : Instr :=
  decodePhase s.phase

/-- R201, R250: after an operation the phase moves to its successor; "If an operation raises a fault, the step records it and
phase keeps its old value." A controller step runs only with `fault` = `NONE`, so a recorded fault is this step's. -/
def advance (p : PhaseCode) : Host.Outcome State Fault Refusal → Host.Outcome State Fault Refusal
  | .next t => .next (if t.fault = none then { t with phase := nextPhase p } else t)
  | .fault f => .fault f
  | .refused r => .refused r

/-- The sample `s` holds, or else the one `TAKE_SAMPLE` would take in `s` (R205). -/
def State.sampleInReach (s : State) : U10 :=
  s.sample.getD (clampSample s.adcData)

/-- `s` with what phase `WRITEk` comes after in every run: channel k's write protect disabled (R283) and its target written,
where it is not, as `BANK_EVAL` would write it (R113). -/
def State.readyToWrite (k : Channel) (s : State) : State :=
  { s with
    wpDone := s.wpDone.set k true
    target := s.target.set k (some (s.target[k].getD (laneTarget s.cfg k s.sampleInReach))) }

/-- `s` with what the operation of phase `code` waits for or reads, as the phases before it leave it in every run: the wait
phases' pending latch (R201 `enabled`), the sample of `EVAL` and the target of `WRITEk`, which R40 says are written before
they are read. A register that holds a value keeps it. -/
def State.readyFor (code : PhaseCode) (s : State) : State :=
  match code.toNat with
  | 0x5 => { s with adc := { s.adc with pend := true } }
  | 0x6 => { s with sample := some s.sampleInReach }
  | 0x7 => s.readyToWrite 0
  | 0x8 => s.readyToWrite 1
  | 0x9 => s.readyToWrite 2
  | 0xA => s.readyToWrite 3
  | 0xC => { s with tmr := { s.tmr with pend := true } }
  | _ => s

/-- `s` with the controller about to take a step at phase `code`: no recorded fault, no turn of the environment before it,
and what the operation needs to run (assumption 10). -/
def State.atPhase (s : State) (code : PhaseCode) : State :=
  { s with phase := code, fault := none, turns := [] }.readyFor code

/-- `s` with the controller about to send this frame: nothing fetches a frame, so the state is the one in which the very next
controller step emits it (R178 for a WP frame, R174 for a value frame; assumption 10). -/
def State.beforeFrame (s : State) (i : Instr) : State :=
  match i with
  | .valueFrame tag payload =>
    { s.atPhase 0x7 with
      cfg := { s.cfg with cmdTag := tag }
      sel := none
      wpDone := s.wpDone.set 0 true
      cacheVld := s.cacheVld.set 0 false
      target := s.target.set 0 (some (if s.cfg.invert then 1023#10 - payload else payload)) }
  | .wpFrame byte0 byte1 =>
    { s.atPhase 0x0 with cfg := { s.cfg with wpByte0 := byte0, wpByte1 := byte1 }, sel := none }
  | _ => s

/-- `s` made to run, as its next controller step, the table word `w` of `nbits` bits. A word the decoder refuses changes
nothing. -/
def State.selectWord (s : State) (nbits w : Nat) : State :=
  match decodeTableWord nbits w with
  | none => s
  | some i =>
    match encodePhase i with
    | some code => s.atPhase code
    | none => s.beforeFrame i

end Sys2Proof.Machine
end

