-- ==== Sys2Proof/Machine/Step.lean ====
section
/-! DEFINITION. One step of the machine (spec/00_scope.md R6): one operation of the controller (spec/43_controller.md R201) or one
event of the environment (spec/20_memory.md R72), as the head of `State.turns` says. -/

namespace Sys2Proof.Machine

/-- R201: the controller's step where one is enabled; where none is, the controller is suspended and nothing changes (R204,
R260). The operation runs, then the phase moves on, unless it raised. -/
def controllerStep (s : State) : Host.Outcome State Fault Refusal :=
  if s.enabled then advance s.phase (exec (fetch s) s) else .next s

/-- R6, R72, R215: the next turn. -/
def step (s : State) : Host.Outcome State Fault Refusal :=
  match s.turns with
  | [] => controllerStep s
  | .controller :: rest => controllerStep { s with turns := rest }
  | .now e :: rest => .next (deliver e { s with turns := rest })
  | .atRest e :: rest =>
    if s.quiescent && s.fault.isNone then .next (deliver e { s with turns := rest }) else controllerStep s

/-- `s` made to run, as its next step, the instruction whose `nbits` bits are `w`; see `State.selectWord`. -/
def State.withFetchWord (s : State) (nbits w : Nat) : State :=
  s.selectWord nbits w

end Sys2Proof.Machine
end

