-- ==== Sys2Proof/Machine/Exact.lean ====
section
/-! DEFINITION. The formulas of spec/40_interpolator.md R100 on the mathematical integers (spec/00_scope.md R11, R115), beside the
32-bit datapath of Machine/Interpolator.lean. -/

namespace Sys2Proof.Machine

/-- R62: a ROM word as the number it holds. -/
def exactX (rom : CurveRom) (c : CurveNo) (p : PointNo) : Int :=
  (rom.x c p).toNat

/-- R62: a ROM word as the number it holds. -/
def exactY (rom : CurveRom) (c : CurveNo) (p : PointNo) : Int :=
  (rom.y c p).toNat

/-- R101: `xs = s << 5 = 32 s`. -/
def exactXs (v : U10) : Int :=
  32 * v.toNat

/-- R102: the number of interior control points that lie strictly below `xs`. -/
def exactIndex (rom : CurveRom) (c : CurveNo) (v : U10) : PointNo :=
  BitVec.ofNat 3 (([1, 2, 3, 4, 5, 6] : List PointNo).countP fun k => decide (exactX rom c k < exactXs v))

/-- R104: `t = xs - X(c,i)`. -/
def exactT (rom : CurveRom) (c : CurveNo) (v : U10) : Int :=
  exactXs v - exactX rom c (exactIndex rom c v)

/-- R104: `dx = X(c,i+1) - X(c,i)`. -/
def exactDx (rom : CurveRom) (c : CurveNo) (v : U10) : Int :=
  exactX rom c (exactIndex rom c v + 1) - exactX rom c (exactIndex rom c v)

/-- R104: `dy = Y(c,i+1) - Y(c,i)`. -/
def exactDy (rom : CurveRom) (c : CurveNo) (v : U10) : Int :=
  exactY rom c (exactIndex rom c v + 1) - exactY rom c (exactIndex rom c v)

/-- R104: `p = dy * t`. -/
def exactP (rom : CurveRom) (c : CurveNo) (v : U10) : Int :=
  exactDy rom c v * exactT rom c v

/-- R105: `delta = p quot dx`, truncated toward zero. -/
def exactDelta (rom : CurveRom) (c : CurveNo) (v : U10) : Int :=
  (exactP rom c v).tdiv (exactDx rom c v)

/-- R106: `r = y0 + delta`. -/
def exactR (rom : CurveRom) (c : CurveNo) (v : U10) : Int :=
  exactY rom c (exactIndex rom c v) + exactDelta rom c v

/-- R106: `r5 = floor(r / 32)`. -/
def exactInterp (rom : CurveRom) (c : CurveNo) (v : U10) : Int :=
  (exactR rom c v).fdiv 32

/-- R113: the target of a lane. -/
def exactTarget (cfg : Config) (k : Channel) (v : U10) : U10 :=
  BitVec.ofInt 10 (clampInt (exactInterp cfg.curveRom cfg.curveOf[k] v) 0 1023)

end Sys2Proof.Machine
end

