-- ==== Sys2Proof/Machine/Trace.lean ====
section
/-! DEFINITION. Reading a trace: the shorthands of spec/30_encoding.md R94, the line levels of spec/00_scope.md R13, what a receiver
samples (spec/41_serial_bus.md R143, spec/30_encoding.md R85) and the discipline of a trace (R85, spec/42_chip_select.md R173). -/

namespace Sys2Proof.Machine

/-- R141: one bit cell. -/
def cellEvents (level : Bool) : List PinEvent :=
  [.dat level, .clk true, .clk false]

/-- R66, R84, R143: the levels of a byte in the order they go out. -/
def byteBits (b : Byte) : List Bool :=
  [b.getLsbD 7, b.getLsbD 6, b.getLsbD 5, b.getLsbD 4, b.getLsbD 3, b.getLsbD 2, b.getLsbD 1, b.getLsbD 0]

/-- R94 `BYTE(b)`: the 24 events of `SEND_BYTE(b)`. -/
def byteEvents (b : Byte) : List PinEvent :=
  (byteBits b).flatMap cellEvents

/-- R84: a frame word's 48 events. -/
def wordEvents (w : FrameWord) : List PinEvent :=
  byteEvents (frameHigh w) ++ byteEvents (frameLow w)

/-- R94 `FRAME(k, w)`. -/
def frameEvents (k : Channel) (w : FrameWord) : List PinEvent :=
  .cs (csMask (some k)) :: wordEvents w ++ [.cs (csMask none)]

/-- R94 `VALUE(k, v)`. -/
def valueEvents (cfg : Config) (k : Channel) (v : U10) : List PinEvent :=
  frameEvents k (valueFrameWord cfg.cmdTag (payloadOf cfg v))

/-- R212 `WPW`: the WP frame word of a configuration. -/
def wpWord (cfg : Config) : FrameWord :=
  wpFrameWord cfg.wpByte0 cfg.wpByte1

/-- R212: what the `WRITEk` step emits: the value frame where `changed` holds, else nothing. -/
def writeEvents (k : Channel) (s : State) : List PinEvent :=
  match s.target[k] with
  | none => []
  | some v => if s.changed k v = .ok true then valueEvents s.cfg k v else []

/-- R212: what the controller step of a phase emits. -/
def phaseEvents (s : State) : List PinEvent :=
  match decodePhase s.phase with
  | .disableWp k => frameEvents k (wpWord s.cfg)
  | .requestSample => [.adcStart]
  | .maybeWrite0 => writeEvents 0 s
  | .maybeWrite1 => writeEvents 1 s
  | .maybeWrite2 => writeEvents 2 s
  | .maybeWrite3 => writeEvents 3 s
  | .armTimer => [.tmrArm]
  | _ => []

/-- R13: the levels of the output lines at a point of the trace. -/
structure Lines where
  cs  : CsMask
  clk : Bool
  dat : Bool
  deriving DecidableEq, Repr

/-- R13, R39: the levels before any event. -/
def Lines.reset : Lines where
  cs  := 0b1111
  clk := false
  dat := false

/-- R13: an event drives its line; the two pulses drive none of these. -/
def Lines.drive (l : Lines) : PinEvent → Lines
  | .clk level => { l with clk := level }
  | .dat level => { l with dat := level }
  | .cs mask => { l with cs := mask }
  | .adcStart => l
  | .tmrArm => l

/-- R13: "the level of the last event that drove it, or its reset level". -/
def linesAfter (trace : List PinEvent) : Lines :=
  trace.foldl Lines.drive Lines.reset

/-- R13: the levels the block's registers hold. -/
def State.lines (s : State) : Lines where
  cs  := s.csN
  clk := s.sclk
  dat := s.sdata

/-- R143: a receiver on one chip-select line: the levels it sees, the bits of the frame in progress and the finished frames. -/
structure Receiver where
  lines  : Lines
  bits   : List Bool
  frames : List (List Bool)
  deriving DecidableEq, Repr

/-- R143, R85: what receiver `k` does on one event, sampling `sdata` on the edges of `sclk` to level `edge` while its line is
low. R91: it finds the frame's end by the rising edge of its chip-select. -/
def Receiver.observe (k : Channel) (edge : Bool) (r : Receiver) (e : PinEvent) : Receiver :=
  let selected := !r.lines.cs.getLsbD k
  let r' := { r with lines := r.lines.drive e }
  match e with
  | .clk level => if selected && (level == edge) && (r.lines.clk != level) then { r' with bits := r.bits ++ [r.lines.dat] } else r'
  | .cs mask =>
    if selected && mask.getLsbD k then { r' with bits := [], frames := r.frames ++ [r.bits] }
    else if selected then r' else { r' with bits := [] }
  | .dat _ => r'
  | .adcStart => r'
  | .tmrArm => r'

/-- R143, R85: the frames receiver `k` has read from a trace. `edge` = false samples on falling edges. -/
def received (k : Channel) (edge : Bool) (trace : List PinEvent) : List (List Bool) :=
  (trace.foldl (Receiver.observe k edge) { lines := Lines.reset, bits := [], frames := [] }).frames

/-- R85, R173: where a trace stands in the frame discipline: idle, or in channel `k`'s frame after `bits` whole cells,
before a cell, after its `DAT` or after its `CLK(1)`. -/
inductive FramePos where
  | idle
  | cell (k : Channel) (bits : Nat)
  | data (k : Channel) (bits : Nat)
  | high (k : Channel) (bits : Nat)
  deriving DecidableEq, Repr

/-- R89: the channel a legal non-idle mask selects. -/
def selectedBy (mask : CsMask) : Option Channel :=
  ([0, 1, 2, 3] : List Channel).find? fun k => csMask (some k) == mask

/-- R85, R173: from idle a mask of R89 opens a frame and no clock rises; inside a frame only bit cells stand, sixteen of them,
and then `CS(1111)`. `none` is a breach. -/
def FramePos.next : FramePos → PinEvent → Option FramePos
  | .idle, .cs mask => if mask = csMask none then some .idle else (selectedBy mask).map fun k => .cell k 0
  | .idle, .clk level => if level then none else some .idle
  | .idle, .dat _ => some .idle
  | .idle, .adcStart => some .idle
  | .idle, .tmrArm => some .idle
  | .cell k bits, .dat _ => if bits < 16 then some (.data k bits) else none
  | .cell _ bits, .cs mask => if bits = 16 ∧ mask = csMask none then some .idle else none
  | .cell _ _, .clk _ => none
  | .cell _ _, .adcStart => none
  | .cell _ _, .tmrArm => none
  | .data k bits, .clk level => if level then some (.high k bits) else none
  | .data _ _, .dat _ => none
  | .data _ _, .cs _ => none
  | .data _ _, .adcStart => none
  | .data _ _, .tmrArm => none
  | .high k bits, .clk level => if level then none else some (.cell k (bits + 1))
  | .high _ _, .dat _ => none
  | .high _ _, .cs _ => none
  | .high _ _, .adcStart => none
  | .high _ _, .tmrArm => none

/-- R85, R173: read a trace from a position. -/
def framePosAfter : FramePos → List PinEvent → Option FramePos
  | p, [] => some p
  | p, e :: rest =>
    match p.next e with
    | some q => framePosAfter q rest
    | none => none

/-- R85, R173: the trace keeps the discipline and stands outside any frame. -/
def wellFramed (trace : List PinEvent) : Bool :=
  framePosAfter .idle trace == some .idle

end Sys2Proof.Machine
end

