-- ==== Sys2Proof/Safety.lean ====
section
/-! DEFINITION. What counts as a safe state and a safe run (spec/60_exceptions.md R250: "A faulted state is never a good final
state"), and the words the statements are made of. -/

namespace Sys2Proof.Machine

/-- The operating invariant: what holds of the block between any two steps, from power-on on. -/
structure Inv (s : State) : Prop where
  /-- R250: no fault is reachable. -/
  noFault : s.fault = none
  /-- R217: no rule writes a reserved code. -/
  legalPhase : s.phase.toNat ≤ 12
  /-- R248: `adc_ie` = 1 only in `WAIT_ADC`. -/
  adcEnabled : s.adc.ie = true ↔ s.phase = phaseWaitAdc
  /-- R31: pending only while enabled. -/
  adcPending : s.adc.pend = true → s.adc.ie = true
  /-- R248: `tmr_ie` = 1 only in `WAIT_TMR`. -/
  tmrEnabled : s.tmr.ie = true ↔ s.phase = phaseWaitTmr
  /-- R32: pending only while enabled. -/
  tmrPending : s.tmr.pend = true → s.tmr.ie = true
  /-- R180: every selection ends in its operation. -/
  idle : s.sel = none
  /-- R30: between bytes `sclk` is 0. -/
  clockLow : s.sclk = false
  /-- R179, R283: the channels whose boot phase has passed have their write protect disabled. -/
  writeProtect : ∀ k : Channel, s.wpDone[k] = true ↔ k.val < s.phase.toNat
  /-- R40: the sample is written before it is read. -/
  sampleHeld : 6 ≤ s.phase.toNat → s.sample.isSome = true
  /-- R40: the targets are written before they are read. -/
  targetsHeld : 7 ≤ s.phase.toNat → ∀ k : Channel, (s.target[k]).isSome = true
  /-- R26: a valid last-written value register holds a value. -/
  cacheHeld : ∀ k : Channel, s.cacheVld[k] = true → (s.cacheVal[k]).isSome = true
  /-- R36: the shift register and the bit counter hold nothing between steps. -/
  shifterEmpty : s.shreg = 0 ∧ s.bitcnt = 0
  /-- R36, R39: no request pulse is high between steps. -/
  noPulse : s.adcStart = false ∧ s.tmrArm = false
  /-- R13: the line registers hold the levels the trace drove. -/
  linesFollow : linesAfter s.trace = s.lines
  /-- R85, R173: the trace keeps the frame discipline. -/
  framed : wellFramed s.trace = true
  /-- R241: the synchronizers have `SYNC_STAGES` flops. -/
  syncDepth : s.adcSync.stages.length = s.cfg.syncStages ∧ s.tmrSync.stages.length = s.cfg.syncStages

/-- It is the controller's turn in `s`, and `s0` is the state it acts on. -/
def ControllerTurn (s s0 : State) : Prop :=
  (s.turns = [] ∧ s0 = s) ∨
  (∃ rest, s.turns = .controller :: rest ∧ s0 = { s with turns := rest }) ∨
  (∃ e rest, s.turns = .atRest e :: rest ∧ (s.enabled = true ∨ s.fault ≠ none) ∧ s0 = s)

/-- It is the environment's turn in `s`, with event `e`, and `s0` is the state it acts on. -/
def EnvironmentTurn (s : State) (e : EnvEvent) (s0 : State) : Prop :=
  (∃ rest, s.turns = .now e :: rest ∧ s0 = { s with turns := rest }) ∨
  (∃ rest, s.turns = .atRest e :: rest ∧ s.enabled = false ∧ s.fault = none ∧ s0 = { s with turns := rest })

/-- The instruction of phase `WRITEk` (R207). -/
def maybeWriteOf : Channel → Instr
  | 0 => .maybeWrite0
  | 1 => .maybeWrite1
  | 2 => .maybeWrite2
  | 3 => .maybeWrite3

/-- R250: `s` with `F` recorded, and nothing else changed: a fault raised before anything was written. -/
def State.faulted (s : State) (f : Fault) : State :=
  { s with fault := s.fault.or (some f) }

/-- R142: `s` after the events of whole bytes, the last of which ends in the bit `last`. -/
def State.afterBytes (s : State) (events : List PinEvent) (last : Bool) : State :=
  { s with trace := s.trace ++ events, sclk := false, sdata := last, shreg := 0, bitcnt := 0 }

/-- R175, in words: the gate is open. -/
def GateOpen (s : State) (k : Channel) (v : U10) : Prop :=
  s.cfg.alwaysWrite = true ∨ s.cacheVld[k] = false ∨ ∃ old, s.cacheVal[k] = some old ∧ old ≠ v

/-- R175, in words: the gate is shut. -/
def GateShut (s : State) (k : Channel) (v : U10) : Prop :=
  s.cfg.alwaysWrite = false ∧ s.cacheVld[k] = true ∧ s.cacheVal[k] = some v

/-- R64 (a) to (d), in words. -/
def RomConditions (p : Params) : Prop :=
  ∀ c : CurveNo,
    (p.curveRom.x c 0).toNat = 0 ∧
    (∀ q : PointNo, q.toNat ≤ 6 → (p.curveRom.x c q).toNat < (p.curveRom.x c (q + 1)).toNat) ∧
    (p.curveRom.x c 7).toNat = p.xMax.toNat ∧
    (∀ q : PointNo, (p.curveRom.x c q).toNat ≤ 32767 ∧ (p.curveRom.y c q).toNat ≤ 32767)

/-- R241: the synchronizer after `n` clocks with its input held at `level`. -/
def Synchronizer.held (level : Bool) : Nat → Synchronizer → Synchronizer
  | 0, z => z
  | n + 1, z => (Synchronizer.held level n z).clock level

end Sys2Proof.Machine
end

