-- ==== Sys2Proof/WellFormed.lean ====
section
/-! DEFINITION. What may be run. Every operand's range (spec/30_encoding.md R95) is in its type; what is left to check
is that a frame carries the constants of the configuration (R81, R83) and that the parameters are ones a model may run
(spec/20_memory.md R64, spec/00_scope.md R8). -/

namespace Sys2Proof

/-- R81, R83, R95: "The only constants that enter frames are CMD_TAG, WP_BYTE0 and WP_BYTE1, unchanged". -/
def Instr.wellFormed (cfg : Params) : Instr → Bool
  | .valueFrame tag _ => tag == cfg.cmdTag
  | .wpFrame byte0 byte1 => byte0 == cfg.wpByte0 && byte1 == cfg.wpByte1
  | .disableWp _ | .requestSample | .takeSample | .bankEval | .maybeWrite0 | .maybeWrite1 | .maybeWrite2
  | .maybeWrite3 | .armTimer | .takeTimer | .reservedD | .reservedEF _ | .interp _ _ | .clamp10 _ | .clampSample _
  | .sendByte _ | .sendFilterValue _ | .sendWp | .select _ | .deselect => true

/-- R64: the ROM of these parameters is admissible for their `X_MAX`. -/
def Params.romWellFormed (p : Params) : Bool :=
  p.curveRom.admissible p.xMax

/-- R8: `SYNC_STAGES` is a natural number of at least 1. -/
def Params.syncWellFormed (p : Params) : Bool :=
  decide (1 ≤ p.syncStages)

end Sys2Proof
end

