-- ==== Sys2Proof/Certificates/Slice0/Obligations.lean ====
section
/-! DEFINITION. The statements for the provers, one per entry of OBLIGATIONS.json and in its order. Each docstring names the rule of
spec/ it formalises, or the log entry (assumption n) a clause of it rests on. -/

open Sys2Proof Sys2Proof.Machine

/-! ### Encodings -/

/-- R87: the phase code selects the operation; a wait phase is enabled by its pending latch; a reserved code raises; a
sub-operation has no code. -/
def Obligations.PhaseCodeSelectsOperation : Prop :=
  (decode (.phase 0x0) = .ok (.disableWp 0) ∧ decode (.phase 0x1) = .ok (.disableWp 1) ∧
    decode (.phase 0x2) = .ok (.disableWp 2) ∧ decode (.phase 0x3) = .ok (.disableWp 3) ∧
    decode (.phase 0x4) = .ok .requestSample ∧ decode (.phase 0x5) = .ok .takeSample ∧
    decode (.phase 0x6) = .ok .bankEval ∧ decode (.phase 0x7) = .ok .maybeWrite0 ∧
    decode (.phase 0x8) = .ok .maybeWrite1 ∧ decode (.phase 0x9) = .ok .maybeWrite2 ∧
    decode (.phase 0xA) = .ok .maybeWrite3 ∧ decode (.phase 0xB) = .ok .armTimer ∧
    decode (.phase 0xC) = .ok .takeTimer) ∧
  (∀ s : State, s.fault = none →
    (s.enabled = true ↔
      (s.phase = 0x5 → s.adc.pend = true) ∧ (s.phase = 0xC → s.tmr.pend = true))) ∧
  (∀ (code : PhaseCode) (i : Instr) (s : State), 0xD ≤ code.toNat → decode (.phase code) = .ok i →
    exec i s = .next (s.faulted (.badPhase code))) ∧
  (∀ i : Instr, i.format = .subOperation → encode i = none)

/-- R80, R81, R83, R87: every encoding is read back with every operand. -/
def Obligations.EncodedInstructionDecodesBack : Prop :=
  ∀ (i : Instr) (w : CodeWord), encode i = some w → decode w = .ok i

/-- R80, R81, R83, R87: a code word has one meaning, and no other word encodes it. -/
def Obligations.DecodedWordEncodesBack : Prop :=
  ∀ (w : CodeWord) (i : Instr), decode w = .ok i → encode i = some w

/-- R81, R82: the value frame's fields and bytes, and that `SEND_FILTER_VALUE` sends it. -/
def Obligations.ValueFrameCarriesTagAndPayload : Prop :=
  ∀ (s : State) (k : Channel) (v : U10), s.sel = some k →
    let payload := payloadOf s.cfg v
    let w := valueFrameWord s.cfg.cmdTag payload
    w.extractLsb' 12 4 = 0#4 ∧ w.extractLsb' 10 2 = s.cfg.cmdTag ∧ w.extractLsb' 0 10 = payload ∧
    frameHigh w = 0#4 ++ s.cfg.cmdTag ++ payload.extractLsb' 8 2 ∧ frameLow w = payload.extractLsb' 0 8 ∧
    exec (.sendFilterValue v) s = exec (.valueFrame s.cfg.cmdTag payload) s

/-- R83: `SEND_WP` sends the WP frame of the two constants, `WP_BYTE0` first, whichever channel is selected. -/
def Obligations.WpFrameCarriesTheTwoConstants : Prop :=
  ∀ (s : State) (k : Channel), s.sel = some k →
    wpWord s.cfg = s.cfg.wpByte0 ++ s.cfg.wpByte1 ∧
    frameHigh (wpWord s.cfg) = s.cfg.wpByte0 ∧ frameLow (wpWord s.cfg) = s.cfg.wpByte1 ∧
    exec .sendWp s = exec (.wpFrame s.cfg.wpByte0 s.cfg.wpByte1) s

/-- R86: when a WP frame has the bits of a value frame. -/
def Obligations.FrameKindsShareWords : Prop :=
  ∀ (byte0 byte1 : Byte) (tag : BitVec 2),
    (∃ payload : U10, valueFrameWord tag payload = wpFrameWord byte0 byte1) ↔
      byte0.extractLsb' 4 4 = 0#4 ∧ byte0.extractLsb' 2 2 = tag

/-- R81, R90: bits 15:12 of a value frame are 0, and a word with another pad is rejected by name. -/
def Obligations.ValueFrameWithNonzeroPadIsRejected : Prop :=
  ∀ w : FrameWord, w.extractLsb' 12 4 ≠ 0#4 → decode (.valueFrame w) = .error (.padNotZero (w.extractLsb' 12 4))

/-- R61: the address is `{c, a, p}`, so the 64 words are distinct. -/
def Obligations.RomAddressConcatenatesItsFields : Prop :=
  ∀ (c : CurveNo) (a : Axis) (p : PointNo),
    (romAddress c a p).toNat = 16 * c.toNat + 8 * a.bit.toNat + p.toNat

/-! ### The step -/

/-- A step runs the decoded operation: R200, R201, with the turns of assumption 8. -/
def Obligations.StepRunsSelectedOperation : Prop :=
  ∀ (s s0 t : State) (i : Instr), ControllerTurn s s0 → s0.enabled = true → decode (.phase s0.phase) = .ok i →
    exec i s0 = .next t →
    (t.fault = none → step s = .next { t with phase := nextPhase s0.phase }) ∧
    (t.fault ≠ none → step s = .next t)

/-- R204, R215, R260: where no controller step is enabled the controller's turn changes nothing. -/
def Obligations.SuspendedControllerChangesNothing : Prop :=
  ∀ s s0 : State, ControllerTurn s s0 → s0.enabled = false → step s = .next s0

/-- R72: an environment event is one whole step, and what each does: R242, R243, R280 (assumption 8 for the turns). -/
def Obligations.EnvironmentEventIsOneStep : Prop :=
  ∀ (s s0 : State) (e : EnvEvent), EnvironmentTurn s e s0 → step s = .next (deliver e s0)

/-- R215: no state is final. -/
def Obligations.EveryStepAnswersANextState : Prop :=
  ∀ s : State, ∃ t : State, step s = .next t

/-- R23: the successor table, and who else writes the phase (R21, R72). That a suspended controller (R204) has a turn that
changes nothing is the model's choice (assumption 8). -/
def Obligations.PhaseMovesOnlyByTheSuccessorTable : Prop :=
  ∀ s s0 t : State, step s = .next t →
    (ControllerTurn s s0 → s0.enabled = true → t.fault = none →
      (s0.phase, t.phase) ∈ ([(0x0, 0x1), (0x1, 0x2), (0x2, 0x3), (0x3, 0x4), (0x4, 0x5), (0x5, 0x6), (0x6, 0x7), (0x7, 0x8),
        (0x8, 0x9), (0x9, 0xA), (0xA, 0xB), (0xB, 0xC), (0xC, 0x4)] : List (PhaseCode × PhaseCode))) ∧
    (ControllerTurn s s0 → s0.enabled = false → t.phase = s0.phase) ∧
    (EnvironmentTurn s .reset s0 → t.phase = 0x0) ∧
    (∀ e : EnvEvent, e ≠ .reset → EnvironmentTurn s e s0 → t.phase = s0.phase)

/-- R22: `st` is the function of the phase in the table of R21, with its three codes. -/
def Obligations.UpdateStateIsAFunctionOfThePhase : Prop :=
  (∀ s : State,
    (s.phase.toNat ≤ 4 → s.st = some .sleeping) ∧ (s.phase = 0x5 → s.st = some .waitingForRead) ∧
    (6 ≤ s.phase.toNat → s.phase.toNat ≤ 0xC → s.st = some .writingValues) ∧ (0xD ≤ s.phase.toNat → s.st = none)) ∧
  UpdateState.sleeping.code = 0b00 ∧ UpdateState.waitingForRead.code = 0b01 ∧ UpdateState.writingValues.code = 0b10

/-- R201, R250: a controller step that raises records the fault, keeps the phase and leaves one fault. -/
def Obligations.RaisingStepKeepsItsPhase : Prop :=
  ∀ s s0 t : State, ControllerTurn s s0 → s0.enabled = true → step s = .next t → t.fault ≠ none →
    t.phase = s0.phase ∧ t.turns = s0.turns ∧ t.cfg = s0.cfg

/-- R34: a recorded fault stays, no controller step is enabled, and a reset clears it. That a controller turn is then a
step that changes nothing is the model's choice (assumptions 1 and 8). -/
def Obligations.RecordedFaultStaysUntilReset : Prop :=
  ∀ (s : State) (f : Fault), s.fault = some f →
    s.enabled = false ∧
    (∀ (i : Instr) (t : State), exec i s = .next t → t.fault = some f) ∧
    (∀ s0 : State, ControllerTurn s s0 → step s = .next s0) ∧
    (∀ (s0 t : State) (e : EnvEvent), EnvironmentTurn s e s0 → step s = .next t →
      (e = .reset → t.fault = none) ∧ (e ≠ .reset → t.fault = some f))

/-- R63: no operation, event or reset writes the ROM (nor any other parameter, R8). -/
def Obligations.NothingWritesTheRom : Prop :=
  ∀ s t : State,
    (∀ i : Instr, exec i s = .next t → t.cfg = s.cfg) ∧ (∀ e : EnvEvent, (deliver e s).cfg = s.cfg) ∧
    (step s = .next t → t.cfg = s.cfg ∧
      ∀ (c : CurveNo) (a : Axis) (p : PointNo), t.cfg.curveRom.read c a p = s.cfg.curveRom.read c a p)

/-! ### What each operation does -/

/-- R100: on an admissible ROM the 32-bit datapath gives the formula's exact integer; where `dx` = 0 it raises
`F_ROM_DX0(c, i)`. -/
def Obligations.InterpDatapathIsExact : Prop :=
  (∀ (cfg : Config) (c : CurveNo) (v : U10), ∃ r : S32,
    interp cfg.curveRom c v = .ok r ∧ r.toInt = exactInterp cfg.curveRom c v) ∧
  (∀ (rom : CurveRom) (c : CurveNo) (v : U10), exactDx rom c v = 0 →
    interp rom c v = .error (.romDx0 c (exactIndex rom c v)))

/-- R104: the bounds of every intermediate, and that the 32-bit ones hold them. -/
def Obligations.InterpNeverOverflows : Prop :=
  ∀ (cfg : Config) (c : CurveNo) (v : U10),
    let rom := cfg.curveRom
    let g := evalSegment rom c v
    g.t.toInt = exactT rom c v ∧ g.dx.toInt = exactDx rom c v ∧ g.dy.toInt = exactDy rom c v ∧
    g.p.toInt = exactP rom c v ∧ g.delta.toInt = exactDelta rom c v ∧ g.r.toInt = exactR rom c v ∧
    0 ≤ exactT rom c v ∧ exactT rom c v ≤ 32736 ∧ 1 ≤ exactDx rom c v ∧
    |exactDy rom c v| ≤ 32767 ∧ |exactP rom c v| ≤ 1072660512 ∧
    |exactDelta rom c v| ≤ 1072660512 ∧ |exactR rom c v| ≤ 1072693279

/-- R111, R112: the two clamps; the converter's word is read as `s16`. -/
def Obligations.ClampsLandInTheDeviceRange : Prop :=
  (∀ v : S32,
    (v.toInt < 0 → clamp10 v = 0) ∧ (1023 < v.toInt → clamp10 v = 1023) ∧
    (0 ≤ v.toInt → v.toInt ≤ 1023 → ((clamp10 v).toNat : Int) = v.toInt)) ∧
  (∀ d : S16,
    (0x8000 ≤ d.toNat → clampSample d = 0) ∧ (0x400 ≤ d.toNat → d.toNat ≤ 0x7FFF → clampSample d = 1023) ∧
    (d.toNat ≤ 0x3FF → (clampSample d).toNat = d.toNat))

/-- The three pure sub-operations complete in every state and answer their result, R100, R111, R112; that the result
stands in the field `ret` is the model's choice (assumption 5). -/
def Obligations.PureOperationsReturnTheirResult : Prop :=
  ∀ s : State,
    (∀ (c : CurveNo) (v : U10), ∃ r : S32, r.toInt = exactInterp s.cfg.curveRom c v ∧
      exec (.interp c v) s = .next { s with ret := some (.s32 r) }) ∧
    (∀ v : S32, exec (.clamp10 v) s = .next { s with ret := some (.u10 (clamp10 v)) }) ∧
    (∀ d : S16, exec (.clampSample d) s = .next { s with ret := some (.u10 (clampSample d)) })

/-- R113: `BANK_EVAL` writes all four targets and nothing else; without a sample it raises `F_UNWRITTEN`. -/
def Obligations.BankEvalWritesTheFourTargets : Prop :=
  ∀ s : State,
    (∀ v : U10, s.sample = some v →
      exec .bankEval s = .next { s with
        target := #v[some (exactTarget s.cfg 0 v), some (exactTarget s.cfg 1 v),
                     some (exactTarget s.cfg 2 v), some (exactTarget s.cfg 3 v)] }) ∧
    (s.sample = none → exec .bankEval s = .next (s.faulted (.unwritten .sample)))

/-- R140, R141: eight bit cells, most significant bit first, or the fault and no event. -/
def Obligations.SendByteShiftsEightCells : Prop :=
  ∀ (b : Byte) (s : State),
    (∀ k : Channel, s.sel = some k →
      exec (.sendByte b) s = .next (s.afterBytes (byteEvents b) (b.getLsbD 0))) ∧
    (s.sel = none → exec (.sendByte b) s = .next (s.faulted (.sendUnselected (.byte b)))) ∧
    byteEvents b = ([7, 6, 5, 4, 3, 2, 1, 0] : List Nat).flatMap fun j => [.dat (b.getLsbD j), .clk true, .clk false]

/-- R147, R148, R149: inversion, byte split and transmission of a value. -/
def Obligations.SendFilterValueSendsTwoBytes : Prop :=
  ∀ (v : U10) (s : State),
    let payload := payloadOf s.cfg v
    (∀ k : Channel, s.sel = some k →
      exec (.sendFilterValue v) s = .next (s.afterBytes
        (byteEvents (0#4 ++ s.cfg.cmdTag ++ payload.extractLsb' 8 2) ++ byteEvents (payload.extractLsb' 0 8))
        (payload.getLsbD 0))) ∧
    (s.sel = none → exec (.sendFilterValue v) s = .next (s.faulted (.sendUnselected (.value v)))) ∧
    (s.cfg.invert = true → payload.toNat = 1023 - v.toNat) ∧ (s.cfg.invert = false → payload = v) ∧
    (∀ v' : U10, payloadOf s.cfg v' = payload → v' = v)

/-- R150: the two constants, unchanged, or the fault and no event. -/
def Obligations.SendWpSendsTheConstants : Prop :=
  ∀ s : State,
    (∀ k : Channel, s.sel = some k →
      exec .sendWp s = .next (s.afterBytes (byteEvents s.cfg.wpByte0 ++ byteEvents s.cfg.wpByte1)
        (s.cfg.wpByte1.getLsbD 0))) ∧
    (s.sel = none → exec .sendWp s = .next (s.faulted (.sendUnselected .nothing)))

/-- A frame goes out as its two bytes, R84; that running a frame row of the table is this is assumption 6. -/
def Obligations.FrameGoesOutHighByteFirst : Prop :=
  ∀ s : State,
    (∀ (k : Channel) (tag : BitVec 2) (payload : U10), s.sel = some k →
      exec (.valueFrame tag payload) s =
        .next (s.afterBytes (wordEvents (valueFrameWord tag payload)) (payload.getLsbD 0))) ∧
    (∀ (k : Channel) (byte0 byte1 : Byte), s.sel = some k →
      exec (.wpFrame byte0 byte1) s = .next (s.afterBytes (byteEvents byte0 ++ byteEvents byte1) (byte1.getLsbD 0))) ∧
    (∀ (tag : BitVec 2) (payload : U10), s.sel = none →
      exec (.valueFrame tag payload) s =
        .next (s.faulted (.sendUnselected (.byte (frameHigh (valueFrameWord tag payload)))))) ∧
    (∀ byte0 byte1 : Byte, s.sel = none →
      exec (.wpFrame byte0 byte1) s = .next (s.faulted (.sendUnselected (.byte byte0))))

/-- R170, R171: selecting from idle, the overlap fault, and releasing. -/
def Obligations.SelectOnlyFromIdle : Prop :=
  ∀ (k : Channel) (s : State),
    (s.sel = none →
      exec (.select k) s = .next { s with sel := some k, trace := s.trace ++ [.cs (csMask (some k))] }) ∧
    (∀ j : Channel, s.sel = some j → exec (.select k) s = .next (s.faulted (.csOverlap j k))) ∧
    exec .deselect s = .next { s with sel := none, trace := s.trace ++ [.cs 0b1111] } ∧
    (∀ j : Channel, (csMask (some k)).getLsbD j = decide (j ≠ k))

/-- R29: the chip-select outputs are a function of `sel`. -/
def Obligations.ChipSelectLinesFollowSelection : Prop :=
  ∀ s : State,
    (s.sel = none → s.csN = 0b1111) ∧
    (∀ k j : Channel, s.sel = some k → s.csN.getLsbD j = decide (j ≠ k))

/-- R178: select, the WP frame, deselect, `wp_done[k]`; from a selected state the overlap fault. -/
def Obligations.DisableWpSendsItsFrame : Prop :=
  ∀ (k : Channel) (s : State),
    (s.sel = none →
      exec (.disableWp k) s = .next { s.afterBytes (frameEvents k (wpWord s.cfg)) (s.cfg.wpByte1.getLsbD 0) with
        wpDone := s.wpDone.set k true }) ∧
    (∀ j : Channel, s.sel = some j → exec (.disableWp k) s = .next (s.faulted (.csOverlap j k)))

/-- R174, R175, R176: the gate, the write and the cache update of `MAYBE_WRITE(k, target[k])`. -/
def Obligations.MaybeWriteFollowsTheGate : Prop :=
  ∀ (k : Channel) (v : U10) (s : State), s.target[k] = some v →
    (s.wpDone[k] = false → exec (maybeWriteOf k) s = .next (s.faulted (.writeBeforeWp k))) ∧
    (s.wpDone[k] = true → GateShut s k v → exec (maybeWriteOf k) s = .next s) ∧
    (s.wpDone[k] = true → GateOpen s k v → s.sel = none →
      exec (maybeWriteOf k) s = .next { s.afterBytes (valueEvents s.cfg k v) ((payloadOf s.cfg v).getLsbD 0) with
        cacheVal := s.cacheVal.set k (some v)
        cacheVld := s.cacheVld.set k true }) ∧
    (s.wpDone[k] = true → GateOpen s k v → ∀ j : Channel, s.sel = some j →
      exec (maybeWriteOf k) s = .next (s.faulted (.csOverlap j k)))

/-- R40: a read of a register with no value raises `F_UNWRITTEN`; that the target is read before `wp_done` is looked at is
assumption 7. -/
def Obligations.UnwrittenReadRaises : Prop :=
  ∀ (k : Channel) (s : State),
    (s.target[k] = none → exec (maybeWriteOf k) s = .next (s.faulted (.unwritten (.target k)))) ∧
    (∀ v : U10, s.target[k] = some v → s.wpDone[k] = true → s.cfg.alwaysWrite = false → s.cacheVld[k] = true →
      s.cacheVal[k] = none → exec (maybeWriteOf k) s = .next (s.faulted (.unwritten (.cacheVal k))))

/-- R203, R208, R244: arming clears pending, enables and pulses, in one step (the pulse flops: assumption 12). -/
def Obligations.ArmingEnablesAndPulses : Prop :=
  ∀ s : State,
    exec .requestSample s = .next { s with
      adc := { ie := true, pend := false }, trace := s.trace ++ [.adcStart], adcStart := false, phase := 0x5 } ∧
    exec .armTimer s = .next { s with
      tmr := { ie := true, pend := false }, trace := s.trace ++ [.tmrArm], tmrArm := false, phase := 0xC }

/-- R205, R209, R245: taking an event is one-shot; the sample is the clamped word as it stands. That `exec` does not look at
the pending latch, which the step's enable does (R201), is assumption 1. -/
def Obligations.TakingAnEventIsOneShot : Prop :=
  ∀ s : State,
    exec .takeSample s = .next { s with
      adc := { ie := false, pend := false }, sample := some (clampSample s.adcData), phase := 0x6 } ∧
    exec .takeTimer s = .next { s with tmr := { ie := false, pend := false }, phase := 0x4 }

/-- R217: a controller step at a reserved phase raises `F_BAD_PHASE(phase)` and changes no other state. -/
def Obligations.ReservedPhaseRaises : Prop :=
  ∀ s : State,
    exec .reservedD s = .next (s.faulted (.badPhase 0xD)) ∧
    (∀ low : BitVec 1, exec (.reservedEF low) s = .next (s.faulted (.badPhase (0b111#3 ++ low)))) ∧
    (∀ s0 : State, ControllerTurn s s0 → s0.fault = none → 0xD ≤ s0.phase.toNat →
      step s = .next { s0 with fault := some (.badPhase s0.phase) })

/-! ### Frames: what is left alone -/

/-- R24 to R28, R31 to R33, R41: which operations write which element; every other one is left as it was, on every path,
the faulting ones too. -/
def Obligations.OnlyNamedOperationsWriteEachElement : Prop :=
  ∀ (i : Instr) (s t : State), exec i s = .next t →
    (t.sample = s.sample ∨ i = .takeSample) ∧
    (t.target = s.target ∨ i = .bankEval) ∧
    (∀ k : Channel, (t.cacheVld[k] = s.cacheVld[k] ∧ t.cacheVal[k] = s.cacheVal[k]) ∨ i = maybeWriteOf k) ∧
    (∀ k : Channel, t.wpDone[k] = s.wpDone[k] ∨ i = .disableWp k) ∧
    (t.adc = s.adc ∨ i = .requestSample ∨ i = .takeSample) ∧
    (t.tmr = s.tmr ∨ i = .armTimer ∨ i = .takeTimer) ∧
    (t.phase = s.phase ∨ i = .requestSample ∨ i = .takeSample ∨ i = .armTimer ∨ i = .takeTimer) ∧
    (t.sel = s.sel ∨ i = .deselect ∨ ∃ k : Channel, i = .select k) ∧
    (t.ret = s.ret ∨ (∃ c v, i = .interp c v) ∨ (∃ v, i = .clamp10 v) ∨ ∃ d, i = .clampSample d) ∧
    ((t.sclk = s.sclk ∧ t.sdata = s.sdata ∧ t.shreg = s.shreg ∧ t.bitcnt = s.bitcnt) ∨ (∃ b, i = .sendByte b) ∨
      (∃ v, i = .sendFilterValue v) ∨ i = .sendWp ∨ (∃ tag payload, i = .valueFrame tag payload) ∨
      (∃ byte0 byte1, i = .wpFrame byte0 byte1) ∨ (∃ k, i = .disableWp k) ∨ ∃ k, i = maybeWriteOf k) ∧
    (t.adcStart = s.adcStart ∨ i = .requestSample) ∧ (t.tmrArm = s.tmrArm ∨ i = .armTimer) ∧
    (t.fault = s.fault ∨ s.fault = none)

/-- R72, R37, R36: no operation writes the environment's word or turns, the synchronizers or the configuration, so every
ROM word reads as before; and none takes an event out of the trace. -/
def Obligations.OperationsLeaveTheEnvironmentAlone : Prop :=
  ∀ (i : Instr) (s t : State), exec i s = .next t →
    t.adcData = s.adcData ∧ t.turns = s.turns ∧ t.adcSync = s.adcSync ∧ t.tmrSync = s.tmrSync ∧ t.cfg = s.cfg ∧
    (∀ (c : CurveNo) (a : Axis) (p : PointNo), t.cfg.curveRom.read c a p = s.cfg.curveRom.read c a p) ∧
    ∃ events : List PinEvent, t.trace = s.trace ++ events

/-! ### Invariants -/

/-- R39, R280, R284: every configuration's power-on state meets the invariant, and so does the model's reset state. -/
def Obligations.PowerOnMeetsTheInvariant : Prop :=
  (∀ cfg : Config, Inv (State.resetOf cfg)) ∧ Inv State.reset

/-- Every step, of the controller or of the environment, keeps the invariant: no fault (R250), legal phases (R217), one
source enabled in its own wait phase (R248), every selection closed (R180), write protect before writes (R179), nothing
read unwritten (R40), lines that follow the trace (R13) and a trace of whole frames (R85, R173). -/
def Obligations.StepKeepsTheInvariant : Prop :=
  ∀ s t : State, Inv s → step s = .next t → Inv t

/-- R250: "Every fault is unreachable from reset under the rules with an admissible configuration", whatever the
environment does and however its events interleave. -/
def Obligations.NoRunRaisesAFault : Prop :=
  ∀ (cfg : Config) (turns : List Turn) (n : Nat), ∃ t : State,
    Host.Core.run Sys2Proof.core n { State.resetOf cfg with turns := turns } = .next t ∧ t.fault = none

/-- R212: what each controller step emits. -/
def Obligations.ControllerStepEmitsItsEvents : Prop :=
  ∀ s s0 t : State, Inv s → ControllerTurn s s0 → s0.enabled = true → step s = .next t →
    t.trace = s0.trace ++ phaseEvents s0

/-- R210: `st` moves round one cycle and a reset restarts it. -/
def Obligations.UpdateStateIsAStrictCycle : Prop :=
  ∀ s t : State, Inv s → step s = .next t →
    t.st = s.st ∨ (s.st = some .sleeping ∧ t.st = some .waitingForRead) ∨
    (s.st = some .waitingForRead ∧ t.st = some .writingValues) ∨
    (s.st = some .writingValues ∧ t.st = some .sleeping) ∨
    (∃ s0 : State, EnvironmentTurn s .reset s0 ∧ t.st = some .sleeping)

/-! ### The serial bus as a receiver sees it -/

/-- R84, R143, R85: of one frame, the selected channel's receiver reads the sixteen bits of the word, bit 15 first, on either
edge, and every other receiver reads nothing. -/
def Obligations.ReceiverReadsTheFrameWord : Prop :=
  ∀ (k j : Channel) (edge : Bool) (w : FrameWord),
    received j edge (frameEvents k w) =
      if j = k then [byteBits (frameHigh w) ++ byteBits (frameLow w)] else []

/-! ### The arithmetic laws -/

/-- R102: the chosen segment holds `xs`, the lower one where `xs` is on a bound. -/
def Obligations.SegmentHoldsTheScaledSample : Prop :=
  ∀ (cfg : Config) (c : CurveNo) (v : U10),
    let rom := cfg.curveRom
    let i := segmentIndex rom c (scaleSample v)
    (scaleSample v).toNat = 32 * v.toNat ∧ i = exactIndex rom c v ∧ i.toNat ≤ 6 ∧
    (∀ k : PointNo, 1 ≤ k.toNat → k.toNat ≤ 6 → (rom.x c k).toNat = 32 * v.toNat → i.toNat = k.toNat - 1) ∧
    (((rom.x c i).toNat < 32 * v.toNat ∧ 32 * v.toNat ≤ (rom.x c (i + 1)).toNat) ∨ (v = 0 ∧ i = 0) ∨
      (i = 6 ∧ (rom.x c 7).toNat < 32 * v.toNat))

/-- R103: the three-comparison search gives the index of the count. -/
def Obligations.SearchAgreesWithTheCount : Prop :=
  ∀ (cfg : Config) (c : CurveNo) (xs : BitVec 16),
    segmentSearch cfg.curveRom c xs = segmentIndex cfg.curveRom c xs

/-- R108: with `X_MAX` at least 32736 the raw result is already in the device range. -/
def Obligations.InterpolationStaysInRange : Prop :=
  ∀ (cfg : Config) (c : CurveNo) (v : U10), 32736 ≤ cfg.xMax.toNat →
    0 ≤ exactInterp cfg.curveRom c v ∧ exactInterp cfg.curveRom c v ≤ 1023

/-- R109: within one segment the result is monotone in the sense of the segment's `dy`. -/
def Obligations.InterpolationIsMonotoneInASegment : Prop :=
  ∀ (cfg : Config) (c : CurveNo) (v v' : U10), v.toNat ≤ v'.toNat →
    exactIndex cfg.curveRom c v = exactIndex cfg.curveRom c v' →
    (0 ≤ exactDy cfg.curveRom c v → exactInterp cfg.curveRom c v ≤ exactInterp cfg.curveRom c v') ∧
    (exactDy cfg.curveRom c v ≤ 0 → exactInterp cfg.curveRom c v' ≤ exactInterp cfg.curveRom c v)

/-- R107 (a), (b), (c): at a control point the result is that point's y, scaled back. -/
def Obligations.InterpolationMeetsItsControlPoints : Prop :=
  ∀ (cfg : Config) (c : CurveNo) (v : U10) (k : PointNo), exactXs v = exactX cfg.curveRom c k →
    exactInterp cfg.curveRom c v = (exactY cfg.curveRom c k).fdiv 32

/-! ### Events, interrupts and configuration -/

/-- R242, R243, R246: an event is latched while its source is enabled and dropped otherwise; `adc_data` always changes. -/
def Obligations.EventsAreLatchedOnlyWhileEnabled : Prop :=
  ∀ (s : State) (d : S16),
    (s.adc.ie = true → deliver (.adcDone d) s = { s with adcData := d, adc := { ie := true, pend := true } }) ∧
    (s.adc.ie = false → deliver (.adcDone d) s = { s with adcData := d }) ∧
    (s.tmr.ie = true → deliver .tmrExpired s = { s with tmr := { ie := true, pend := true } }) ∧
    (s.tmr.ie = false → deliver .tmrExpired s = s)

/-- R248: two events at once are two steps in either order, and the order does not show. -/
def Obligations.EventOrderDoesNotShow : Prop :=
  ∀ (s : State) (d : S16),
    deliver .tmrExpired (deliver (.adcDone d) s) = deliver (.adcDone d) (deliver .tmrExpired s)

/-- R39, R281: the reset value of every element, and the first operation. -/
def Obligations.ResetValuesAreTheTable : Prop :=
  ∀ cfg : Config,
    let s := State.resetOf cfg
    s.phase = 0x0 ∧ s.st = some .sleeping ∧ s.sample = none ∧ (∀ k : Channel, s.target[k] = none) ∧
    (cfg.cacheReset = .sentinel → ∀ k : Channel, s.cacheVld[k] = false ∧ s.cacheVal[k] = none) ∧
    (cfg.cacheReset = .zero → ∀ k : Channel, s.cacheVld[k] = true ∧ s.cacheVal[k] = some 0) ∧
    s.sel = none ∧ s.csN = 0b1111 ∧ s.sclk = false ∧ s.sdata = false ∧
    s.adc = { ie := false, pend := false } ∧ s.tmr = { ie := false, pend := false } ∧
    (∀ k : Channel, s.wpDone[k] = false) ∧ s.fault = none ∧
    (∀ flop ∈ s.adcSync.stages ++ s.tmrSync.stages, flop = false) ∧ s.adcSync.edge = false ∧ s.tmrSync.edge = false ∧
    s.shreg = 0 ∧ s.bitcnt = 0 ∧ s.adcStart = false ∧ s.tmrArm = false ∧ s.trace = [] ∧
    fetch s = .disableWp 0

/-- R280: the reset event, from every state. -/
def Obligations.ResetEventRestoresTheResetState : Prop :=
  ∀ s : State,
    deliver .reset s = { State.resetOf s.cfg with
      adcData := s.adcData, turns := s.turns, trace := s.trace ++ [.cs 0b1111, .clk false, .dat false] }

/-- R281, R283, R212: the four boot steps send the four WP frames in ascending order and reach `SLEEP`. -/
def Obligations.BootSendsTheFourWpFrames : Prop :=
  ∀ cfg : Config,
    Host.Core.run Sys2Proof.core 4 (State.resetOf cfg) = .next { State.resetOf cfg with
      phase := 0x4, sdata := cfg.wpByte1.getLsbD 0, wpDone := #v[true, true, true, true]
      trace := frameEvents 0 (wpWord cfg) ++ frameEvents 1 (wpWord cfg) ++ frameEvents 2 (wpWord cfg) ++
        frameEvents 3 (wpWord cfg) }

/-- R203, R205, R244, R290: a completion that follows its request is taken, with the latest word, whatever arrived before
(assumption 8 for the turns). -/
def Obligations.CompletionAfterRequestIsTaken : Prop :=
  ∀ (s : State) (early d : S16) (rest : List Turn), Inv s → s.phase = 0x4 →
    s.turns = [.now (.adcDone early), .controller, .now (.adcDone d), .controller] ++ rest →
    ∃ t : State, Host.Core.run Sys2Proof.core 4 s = .next t ∧ t.phase = 0x6 ∧ t.sample = some (clampSample d) ∧
      t.adc = { ie := false, pend := false } ∧ t.trace = s.trace ++ [.adcStart] ∧ t.turns = rest

/-- R177: with `ALWAYS_WRITE` = false a second write of the same target does nothing. -/
def Obligations.RepeatedWriteIsIdempotent : Prop :=
  ∀ (k : Channel) (s t : State), Inv s → 7 ≤ s.phase.toNat → s.cfg.alwaysWrite = false →
    exec (maybeWriteOf k) s = .next t → exec (maybeWriteOf k) t = .next t

/-- R182: whether and what a channel writes depends on that channel's own target and cache alone. -/
def Obligations.ChannelsWriteIndependently : Prop :=
  ∀ (k : Channel) (s s' t t' : State), s.cfg = s'.cfg → s.target[k] = s'.target[k] → s.wpDone[k] = s'.wpDone[k] →
    s.cacheVld[k] = s'.cacheVld[k] → s.cacheVal[k] = s'.cacheVal[k] → s.sel = s'.sel →
    exec (maybeWriteOf k) s = .next t → exec (maybeWriteOf k) s' = .next t' →
    (∃ events : List PinEvent, t.trace = s.trace ++ events ∧ t'.trace = s'.trace ++ events) ∧
    t.cacheVld[k] = t'.cacheVld[k] ∧ t.cacheVal[k] = t'.cacheVal[k] ∧
    (∀ j : Channel, j ≠ k → t.cacheVld[j] = s.cacheVld[j] ∧ t.cacheVal[j] = s.cacheVal[j])

/-- R241: an input that goes high and stays high gives one rising edge, after `SYNC_STAGES` clocks, and no other; an input
held low gives none (the chain's wiring is assumption 11). -/
def Obligations.HeldLevelGivesOneEvent : Prop :=
  ∀ (stages n : Nat), 1 ≤ stages →
    ((Synchronizer.held true n (Synchronizer.reset stages)).rising = true ↔ n = stages) ∧
    (Synchronizer.held false n (Synchronizer.reset stages)).rising = false

/-- R241: a clock of the synchronizers shifts both, puts one event in the schedule for each rising edge and changes nothing
else; where the schedule was empty the next steps deliver those events and no other (R72); and the invariant is kept. The
wiring, and that an edge becomes a turn of the schedule, are assumptions 11 and 8. -/
def Obligations.ClockDeliversTheRisingEdges : Prop :=
  ∀ (s : State) (p : PortLevels),
    let z := s.adcSync.clock p.adcDone
    let y := s.tmrSync.clock p.tmrExpired
    let shifted := { s with adcSync := z, tmrSync := y }
    s.clockPorts p = { shifted with
      turns := s.turns ++ (if z.rising = true then [.now (.adcDone p.adcData)] else []) ++
        (if y.rising = true then [.now .tmrExpired] else []) } ∧
    (s.turns = [] → z.rising = true → y.rising = true →
      Host.Core.run Sys2Proof.core 2 (s.clockPorts p) = .next (deliver .tmrExpired (deliver (.adcDone p.adcData) shifted))) ∧
    (s.turns = [] → z.rising = true → y.rising = false → step (s.clockPorts p) = .next (deliver (.adcDone p.adcData) shifted)) ∧
    (s.turns = [] → z.rising = false → y.rising = true → step (s.clockPorts p) = .next (deliver .tmrExpired shifted)) ∧
    (z.rising = false → y.rising = false → s.clockPorts p = shifted) ∧
    (Inv s → Inv (s.clockPorts p))

/-- R64: parameters with an admissible ROM power on in their reset state; an inadmissible ROM is refused. That parameters
outside R8's range of `SYNC_STAGES` are refused too, by a name of their own, is assumption 2. -/
def Obligations.InadmissibleRomIsRefused : Prop :=
  ∀ p : Params,
    (RomConditions p → 1 ≤ p.syncStages →
      ∃ cfg : Config, cfg.toParams = p ∧ configure p = .next (State.resetOf cfg)) ∧
    (¬ RomConditions p → configure p = .refused .inadmissibleRom) ∧
    (RomConditions p → p.syncStages = 0 → configure p = .refused .noSynchronizerStage) ∧
    (∀ cfg : Config, RomConditions cfg.toParams)

/-- R8: the decided defaults of the reset configuration (the OPEN parameters: assumption 2). -/
def Obligations.ResetConfigurationHasTheDefaults : Prop :=
  State.reset.cfg.xMax = 32736#15 ∧ State.reset.cfg.invert = true ∧ State.reset.cfg.alwaysWrite = false ∧
  State.reset.cfg.cacheReset = .sentinel ∧ State.reset.cfg.syncStages = 2 ∧
  (∀ k : Channel, (State.reset.cfg.curveOf[k]).toNat = k.val)

/-- R87, R201: placed in any state that meets the invariant, reset among them, each of the thirteen operations runs: no
fault is recorded and the phase moves on. In `EVAL` and `WRITEk` the registers read are then written, as R40 says of every
run. How an operation is placed is assumption 10. -/
def Obligations.PlacedOperationRuns : Prop :=
  ∀ (s : State) (code : PhaseCode), Inv s → code.toNat ≤ 0xC →
    let placed := s.withFetchWord 8 code.toNat
    ∃ u : State, exec (decodePhase code) placed = .next u ∧ u.fault = none ∧
      step placed = .next { u with phase := nextPhase code }
end

