-- ==== Sys2Proof/Laws/State.lean ====
section
/-! SUPPORT. What each named update of the state leaves in each field: one lemma per field per update, true by rfl. -/

namespace Sys2Proof.Machine

variable (s : State)

/-! ### `emit` -/

@[simp] theorem State.emit_cfg (e : PinEvent) : (s.emit e).cfg = s.cfg := rfl
@[simp] theorem State.emit_phase (e : PinEvent) : (s.emit e).phase = s.phase := rfl
@[simp] theorem State.emit_sample (e : PinEvent) : (s.emit e).sample = s.sample := rfl
@[simp] theorem State.emit_target (e : PinEvent) : (s.emit e).target = s.target := rfl
@[simp] theorem State.emit_cacheVld (e : PinEvent) : (s.emit e).cacheVld = s.cacheVld := rfl
@[simp] theorem State.emit_cacheVal (e : PinEvent) : (s.emit e).cacheVal = s.cacheVal := rfl
@[simp] theorem State.emit_sel (e : PinEvent) : (s.emit e).sel = s.sel := rfl
@[simp] theorem State.emit_sclk (e : PinEvent) : (s.emit e).sclk = s.sclk := rfl
@[simp] theorem State.emit_sdata (e : PinEvent) : (s.emit e).sdata = s.sdata := rfl
@[simp] theorem State.emit_adc (e : PinEvent) : (s.emit e).adc = s.adc := rfl
@[simp] theorem State.emit_tmr (e : PinEvent) : (s.emit e).tmr = s.tmr := rfl
@[simp] theorem State.emit_wpDone (e : PinEvent) : (s.emit e).wpDone = s.wpDone := rfl
@[simp] theorem State.emit_fault (e : PinEvent) : (s.emit e).fault = s.fault := rfl
@[simp] theorem State.emit_adcSync (e : PinEvent) : (s.emit e).adcSync = s.adcSync := rfl
@[simp] theorem State.emit_tmrSync (e : PinEvent) : (s.emit e).tmrSync = s.tmrSync := rfl
@[simp] theorem State.emit_shreg (e : PinEvent) : (s.emit e).shreg = s.shreg := rfl
@[simp] theorem State.emit_bitcnt (e : PinEvent) : (s.emit e).bitcnt = s.bitcnt := rfl
@[simp] theorem State.emit_adcStart (e : PinEvent) : (s.emit e).adcStart = s.adcStart := rfl
@[simp] theorem State.emit_tmrArm (e : PinEvent) : (s.emit e).tmrArm = s.tmrArm := rfl
@[simp] theorem State.emit_adcData (e : PinEvent) : (s.emit e).adcData = s.adcData := rfl
@[simp] theorem State.emit_trace (e : PinEvent) : (s.emit e).trace = s.trace ++ [e] := rfl
@[simp] theorem State.emit_turns (e : PinEvent) : (s.emit e).turns = s.turns := rfl
@[simp] theorem State.emit_ret (e : PinEvent) : (s.emit e).ret = s.ret := rfl

/-! ### `driveDat` -/

@[simp] theorem State.driveDat_cfg (l : Bool) : (s.driveDat l).cfg = s.cfg := rfl
@[simp] theorem State.driveDat_phase (l : Bool) : (s.driveDat l).phase = s.phase := rfl
@[simp] theorem State.driveDat_sample (l : Bool) : (s.driveDat l).sample = s.sample := rfl
@[simp] theorem State.driveDat_target (l : Bool) : (s.driveDat l).target = s.target := rfl
@[simp] theorem State.driveDat_cacheVld (l : Bool) : (s.driveDat l).cacheVld = s.cacheVld := rfl
@[simp] theorem State.driveDat_cacheVal (l : Bool) : (s.driveDat l).cacheVal = s.cacheVal := rfl
@[simp] theorem State.driveDat_sel (l : Bool) : (s.driveDat l).sel = s.sel := rfl
@[simp] theorem State.driveDat_sclk (l : Bool) : (s.driveDat l).sclk = s.sclk := rfl
@[simp] theorem State.driveDat_sdata (l : Bool) : (s.driveDat l).sdata = l := rfl
@[simp] theorem State.driveDat_adc (l : Bool) : (s.driveDat l).adc = s.adc := rfl
@[simp] theorem State.driveDat_tmr (l : Bool) : (s.driveDat l).tmr = s.tmr := rfl
@[simp] theorem State.driveDat_wpDone (l : Bool) : (s.driveDat l).wpDone = s.wpDone := rfl
@[simp] theorem State.driveDat_fault (l : Bool) : (s.driveDat l).fault = s.fault := rfl
@[simp] theorem State.driveDat_adcSync (l : Bool) : (s.driveDat l).adcSync = s.adcSync := rfl
@[simp] theorem State.driveDat_tmrSync (l : Bool) : (s.driveDat l).tmrSync = s.tmrSync := rfl
@[simp] theorem State.driveDat_shreg (l : Bool) : (s.driveDat l).shreg = s.shreg := rfl
@[simp] theorem State.driveDat_bitcnt (l : Bool) : (s.driveDat l).bitcnt = s.bitcnt := rfl
@[simp] theorem State.driveDat_adcStart (l : Bool) : (s.driveDat l).adcStart = s.adcStart := rfl
@[simp] theorem State.driveDat_tmrArm (l : Bool) : (s.driveDat l).tmrArm = s.tmrArm := rfl
@[simp] theorem State.driveDat_adcData (l : Bool) : (s.driveDat l).adcData = s.adcData := rfl
@[simp] theorem State.driveDat_trace (l : Bool) : (s.driveDat l).trace = s.trace ++ [.dat l] := rfl
@[simp] theorem State.driveDat_turns (l : Bool) : (s.driveDat l).turns = s.turns := rfl
@[simp] theorem State.driveDat_ret (l : Bool) : (s.driveDat l).ret = s.ret := rfl

/-! ### `driveClk` -/

@[simp] theorem State.driveClk_cfg (l : Bool) : (s.driveClk l).cfg = s.cfg := rfl
@[simp] theorem State.driveClk_phase (l : Bool) : (s.driveClk l).phase = s.phase := rfl
@[simp] theorem State.driveClk_sample (l : Bool) : (s.driveClk l).sample = s.sample := rfl
@[simp] theorem State.driveClk_target (l : Bool) : (s.driveClk l).target = s.target := rfl
@[simp] theorem State.driveClk_cacheVld (l : Bool) : (s.driveClk l).cacheVld = s.cacheVld := rfl
@[simp] theorem State.driveClk_cacheVal (l : Bool) : (s.driveClk l).cacheVal = s.cacheVal := rfl
@[simp] theorem State.driveClk_sel (l : Bool) : (s.driveClk l).sel = s.sel := rfl
@[simp] theorem State.driveClk_sclk (l : Bool) : (s.driveClk l).sclk = l := rfl
@[simp] theorem State.driveClk_sdata (l : Bool) : (s.driveClk l).sdata = s.sdata := rfl
@[simp] theorem State.driveClk_adc (l : Bool) : (s.driveClk l).adc = s.adc := rfl
@[simp] theorem State.driveClk_tmr (l : Bool) : (s.driveClk l).tmr = s.tmr := rfl
@[simp] theorem State.driveClk_wpDone (l : Bool) : (s.driveClk l).wpDone = s.wpDone := rfl
@[simp] theorem State.driveClk_fault (l : Bool) : (s.driveClk l).fault = s.fault := rfl
@[simp] theorem State.driveClk_adcSync (l : Bool) : (s.driveClk l).adcSync = s.adcSync := rfl
@[simp] theorem State.driveClk_tmrSync (l : Bool) : (s.driveClk l).tmrSync = s.tmrSync := rfl
@[simp] theorem State.driveClk_shreg (l : Bool) : (s.driveClk l).shreg = s.shreg := rfl
@[simp] theorem State.driveClk_bitcnt (l : Bool) : (s.driveClk l).bitcnt = s.bitcnt := rfl
@[simp] theorem State.driveClk_adcStart (l : Bool) : (s.driveClk l).adcStart = s.adcStart := rfl
@[simp] theorem State.driveClk_tmrArm (l : Bool) : (s.driveClk l).tmrArm = s.tmrArm := rfl
@[simp] theorem State.driveClk_adcData (l : Bool) : (s.driveClk l).adcData = s.adcData := rfl
@[simp] theorem State.driveClk_trace (l : Bool) : (s.driveClk l).trace = s.trace ++ [.clk l] := rfl
@[simp] theorem State.driveClk_turns (l : Bool) : (s.driveClk l).turns = s.turns := rfl
@[simp] theorem State.driveClk_ret (l : Bool) : (s.driveClk l).ret = s.ret := rfl

/-! ### `pulseAdcStart` -/

@[simp] theorem State.pulseAdcStart_cfg : s.pulseAdcStart.cfg = s.cfg := rfl
@[simp] theorem State.pulseAdcStart_phase : s.pulseAdcStart.phase = s.phase := rfl
@[simp] theorem State.pulseAdcStart_sample : s.pulseAdcStart.sample = s.sample := rfl
@[simp] theorem State.pulseAdcStart_target : s.pulseAdcStart.target = s.target := rfl
@[simp] theorem State.pulseAdcStart_cacheVld : s.pulseAdcStart.cacheVld = s.cacheVld := rfl
@[simp] theorem State.pulseAdcStart_cacheVal : s.pulseAdcStart.cacheVal = s.cacheVal := rfl
@[simp] theorem State.pulseAdcStart_sel : s.pulseAdcStart.sel = s.sel := rfl
@[simp] theorem State.pulseAdcStart_sclk : s.pulseAdcStart.sclk = s.sclk := rfl
@[simp] theorem State.pulseAdcStart_sdata : s.pulseAdcStart.sdata = s.sdata := rfl
@[simp] theorem State.pulseAdcStart_adc : s.pulseAdcStart.adc = s.adc := rfl
@[simp] theorem State.pulseAdcStart_tmr : s.pulseAdcStart.tmr = s.tmr := rfl
@[simp] theorem State.pulseAdcStart_wpDone : s.pulseAdcStart.wpDone = s.wpDone := rfl
@[simp] theorem State.pulseAdcStart_fault : s.pulseAdcStart.fault = s.fault := rfl
@[simp] theorem State.pulseAdcStart_adcSync : s.pulseAdcStart.adcSync = s.adcSync := rfl
@[simp] theorem State.pulseAdcStart_tmrSync : s.pulseAdcStart.tmrSync = s.tmrSync := rfl
@[simp] theorem State.pulseAdcStart_shreg : s.pulseAdcStart.shreg = s.shreg := rfl
@[simp] theorem State.pulseAdcStart_bitcnt : s.pulseAdcStart.bitcnt = s.bitcnt := rfl
@[simp] theorem State.pulseAdcStart_adcStart : s.pulseAdcStart.adcStart = false := rfl
@[simp] theorem State.pulseAdcStart_tmrArm : s.pulseAdcStart.tmrArm = s.tmrArm := rfl
@[simp] theorem State.pulseAdcStart_adcData : s.pulseAdcStart.adcData = s.adcData := rfl
@[simp] theorem State.pulseAdcStart_trace : s.pulseAdcStart.trace = s.trace ++ [.adcStart] := rfl
@[simp] theorem State.pulseAdcStart_turns : s.pulseAdcStart.turns = s.turns := rfl
@[simp] theorem State.pulseAdcStart_ret : s.pulseAdcStart.ret = s.ret := rfl

/-! ### `pulseTmrArm` -/

@[simp] theorem State.pulseTmrArm_cfg : s.pulseTmrArm.cfg = s.cfg := rfl
@[simp] theorem State.pulseTmrArm_phase : s.pulseTmrArm.phase = s.phase := rfl
@[simp] theorem State.pulseTmrArm_sample : s.pulseTmrArm.sample = s.sample := rfl
@[simp] theorem State.pulseTmrArm_target : s.pulseTmrArm.target = s.target := rfl
@[simp] theorem State.pulseTmrArm_cacheVld : s.pulseTmrArm.cacheVld = s.cacheVld := rfl
@[simp] theorem State.pulseTmrArm_cacheVal : s.pulseTmrArm.cacheVal = s.cacheVal := rfl
@[simp] theorem State.pulseTmrArm_sel : s.pulseTmrArm.sel = s.sel := rfl
@[simp] theorem State.pulseTmrArm_sclk : s.pulseTmrArm.sclk = s.sclk := rfl
@[simp] theorem State.pulseTmrArm_sdata : s.pulseTmrArm.sdata = s.sdata := rfl
@[simp] theorem State.pulseTmrArm_adc : s.pulseTmrArm.adc = s.adc := rfl
@[simp] theorem State.pulseTmrArm_tmr : s.pulseTmrArm.tmr = s.tmr := rfl
@[simp] theorem State.pulseTmrArm_wpDone : s.pulseTmrArm.wpDone = s.wpDone := rfl
@[simp] theorem State.pulseTmrArm_fault : s.pulseTmrArm.fault = s.fault := rfl
@[simp] theorem State.pulseTmrArm_adcSync : s.pulseTmrArm.adcSync = s.adcSync := rfl
@[simp] theorem State.pulseTmrArm_tmrSync : s.pulseTmrArm.tmrSync = s.tmrSync := rfl
@[simp] theorem State.pulseTmrArm_shreg : s.pulseTmrArm.shreg = s.shreg := rfl
@[simp] theorem State.pulseTmrArm_bitcnt : s.pulseTmrArm.bitcnt = s.bitcnt := rfl
@[simp] theorem State.pulseTmrArm_adcStart : s.pulseTmrArm.adcStart = s.adcStart := rfl
@[simp] theorem State.pulseTmrArm_tmrArm : s.pulseTmrArm.tmrArm = false := rfl
@[simp] theorem State.pulseTmrArm_adcData : s.pulseTmrArm.adcData = s.adcData := rfl
@[simp] theorem State.pulseTmrArm_trace : s.pulseTmrArm.trace = s.trace ++ [.tmrArm] := rfl
@[simp] theorem State.pulseTmrArm_turns : s.pulseTmrArm.turns = s.turns := rfl
@[simp] theorem State.pulseTmrArm_ret : s.pulseTmrArm.ret = s.ret := rfl

/-! ### `record` -/

@[simp] theorem State.record_cfg (f : Fault) : (s.record f).cfg = s.cfg := rfl
@[simp] theorem State.record_phase (f : Fault) : (s.record f).phase = s.phase := rfl
@[simp] theorem State.record_sample (f : Fault) : (s.record f).sample = s.sample := rfl
@[simp] theorem State.record_target (f : Fault) : (s.record f).target = s.target := rfl
@[simp] theorem State.record_cacheVld (f : Fault) : (s.record f).cacheVld = s.cacheVld := rfl
@[simp] theorem State.record_cacheVal (f : Fault) : (s.record f).cacheVal = s.cacheVal := rfl
@[simp] theorem State.record_sel (f : Fault) : (s.record f).sel = s.sel := rfl
@[simp] theorem State.record_sclk (f : Fault) : (s.record f).sclk = s.sclk := rfl
@[simp] theorem State.record_sdata (f : Fault) : (s.record f).sdata = s.sdata := rfl
@[simp] theorem State.record_adc (f : Fault) : (s.record f).adc = s.adc := rfl
@[simp] theorem State.record_tmr (f : Fault) : (s.record f).tmr = s.tmr := rfl
@[simp] theorem State.record_wpDone (f : Fault) : (s.record f).wpDone = s.wpDone := rfl
@[simp] theorem State.record_fault (f : Fault) : (s.record f).fault = s.fault.or (some f) := rfl
@[simp] theorem State.record_adcSync (f : Fault) : (s.record f).adcSync = s.adcSync := rfl
@[simp] theorem State.record_tmrSync (f : Fault) : (s.record f).tmrSync = s.tmrSync := rfl
@[simp] theorem State.record_shreg (f : Fault) : (s.record f).shreg = s.shreg := rfl
@[simp] theorem State.record_bitcnt (f : Fault) : (s.record f).bitcnt = s.bitcnt := rfl
@[simp] theorem State.record_adcStart (f : Fault) : (s.record f).adcStart = s.adcStart := rfl
@[simp] theorem State.record_tmrArm (f : Fault) : (s.record f).tmrArm = s.tmrArm := rfl
@[simp] theorem State.record_adcData (f : Fault) : (s.record f).adcData = s.adcData := rfl
@[simp] theorem State.record_trace (f : Fault) : (s.record f).trace = s.trace := rfl
@[simp] theorem State.record_turns (f : Fault) : (s.record f).turns = s.turns := rfl
@[simp] theorem State.record_ret (f : Fault) : (s.record f).ret = s.ret := rfl

/-! ### `withResult` -/

@[simp] theorem State.withResult_cfg (r : OpResult) : (s.withResult r).cfg = s.cfg := rfl
@[simp] theorem State.withResult_phase (r : OpResult) : (s.withResult r).phase = s.phase := rfl
@[simp] theorem State.withResult_sample (r : OpResult) : (s.withResult r).sample = s.sample := rfl
@[simp] theorem State.withResult_target (r : OpResult) : (s.withResult r).target = s.target := rfl
@[simp] theorem State.withResult_cacheVld (r : OpResult) : (s.withResult r).cacheVld = s.cacheVld := rfl
@[simp] theorem State.withResult_cacheVal (r : OpResult) : (s.withResult r).cacheVal = s.cacheVal := rfl
@[simp] theorem State.withResult_sel (r : OpResult) : (s.withResult r).sel = s.sel := rfl
@[simp] theorem State.withResult_sclk (r : OpResult) : (s.withResult r).sclk = s.sclk := rfl
@[simp] theorem State.withResult_sdata (r : OpResult) : (s.withResult r).sdata = s.sdata := rfl
@[simp] theorem State.withResult_adc (r : OpResult) : (s.withResult r).adc = s.adc := rfl
@[simp] theorem State.withResult_tmr (r : OpResult) : (s.withResult r).tmr = s.tmr := rfl
@[simp] theorem State.withResult_wpDone (r : OpResult) : (s.withResult r).wpDone = s.wpDone := rfl
@[simp] theorem State.withResult_fault (r : OpResult) : (s.withResult r).fault = s.fault := rfl
@[simp] theorem State.withResult_adcSync (r : OpResult) : (s.withResult r).adcSync = s.adcSync := rfl
@[simp] theorem State.withResult_tmrSync (r : OpResult) : (s.withResult r).tmrSync = s.tmrSync := rfl
@[simp] theorem State.withResult_shreg (r : OpResult) : (s.withResult r).shreg = s.shreg := rfl
@[simp] theorem State.withResult_bitcnt (r : OpResult) : (s.withResult r).bitcnt = s.bitcnt := rfl
@[simp] theorem State.withResult_adcStart (r : OpResult) : (s.withResult r).adcStart = s.adcStart := rfl
@[simp] theorem State.withResult_tmrArm (r : OpResult) : (s.withResult r).tmrArm = s.tmrArm := rfl
@[simp] theorem State.withResult_adcData (r : OpResult) : (s.withResult r).adcData = s.adcData := rfl
@[simp] theorem State.withResult_trace (r : OpResult) : (s.withResult r).trace = s.trace := rfl
@[simp] theorem State.withResult_turns (r : OpResult) : (s.withResult r).turns = s.turns := rfl
@[simp] theorem State.withResult_ret (r : OpResult) : (s.withResult r).ret = some r := rfl

/-! ### `cacheWrite` -/

@[simp] theorem State.cacheWrite_cfg (k : Channel) (v : U10) : (s.cacheWrite k v).cfg = s.cfg := rfl
@[simp] theorem State.cacheWrite_phase (k : Channel) (v : U10) : (s.cacheWrite k v).phase = s.phase := rfl
@[simp] theorem State.cacheWrite_sample (k : Channel) (v : U10) : (s.cacheWrite k v).sample = s.sample := rfl
@[simp] theorem State.cacheWrite_target (k : Channel) (v : U10) : (s.cacheWrite k v).target = s.target := rfl
@[simp] theorem State.cacheWrite_cacheVld (k : Channel) (v : U10) : (s.cacheWrite k v).cacheVld = s.cacheVld.set k true := rfl
@[simp] theorem State.cacheWrite_cacheVal (k : Channel) (v : U10) : (s.cacheWrite k v).cacheVal = s.cacheVal.set k (some v) := rfl
@[simp] theorem State.cacheWrite_sel (k : Channel) (v : U10) : (s.cacheWrite k v).sel = s.sel := rfl
@[simp] theorem State.cacheWrite_sclk (k : Channel) (v : U10) : (s.cacheWrite k v).sclk = s.sclk := rfl
@[simp] theorem State.cacheWrite_sdata (k : Channel) (v : U10) : (s.cacheWrite k v).sdata = s.sdata := rfl
@[simp] theorem State.cacheWrite_adc (k : Channel) (v : U10) : (s.cacheWrite k v).adc = s.adc := rfl
@[simp] theorem State.cacheWrite_tmr (k : Channel) (v : U10) : (s.cacheWrite k v).tmr = s.tmr := rfl
@[simp] theorem State.cacheWrite_wpDone (k : Channel) (v : U10) : (s.cacheWrite k v).wpDone = s.wpDone := rfl
@[simp] theorem State.cacheWrite_fault (k : Channel) (v : U10) : (s.cacheWrite k v).fault = s.fault := rfl
@[simp] theorem State.cacheWrite_adcSync (k : Channel) (v : U10) : (s.cacheWrite k v).adcSync = s.adcSync := rfl
@[simp] theorem State.cacheWrite_tmrSync (k : Channel) (v : U10) : (s.cacheWrite k v).tmrSync = s.tmrSync := rfl
@[simp] theorem State.cacheWrite_shreg (k : Channel) (v : U10) : (s.cacheWrite k v).shreg = s.shreg := rfl
@[simp] theorem State.cacheWrite_bitcnt (k : Channel) (v : U10) : (s.cacheWrite k v).bitcnt = s.bitcnt := rfl
@[simp] theorem State.cacheWrite_adcStart (k : Channel) (v : U10) : (s.cacheWrite k v).adcStart = s.adcStart := rfl
@[simp] theorem State.cacheWrite_tmrArm (k : Channel) (v : U10) : (s.cacheWrite k v).tmrArm = s.tmrArm := rfl
@[simp] theorem State.cacheWrite_adcData (k : Channel) (v : U10) : (s.cacheWrite k v).adcData = s.adcData := rfl
@[simp] theorem State.cacheWrite_trace (k : Channel) (v : U10) : (s.cacheWrite k v).trace = s.trace := rfl
@[simp] theorem State.cacheWrite_turns (k : Channel) (v : U10) : (s.cacheWrite k v).turns = s.turns := rfl
@[simp] theorem State.cacheWrite_ret (k : Channel) (v : U10) : (s.cacheWrite k v).ret = s.ret := rfl

/-! ### `faulted` -/

@[simp] theorem State.faulted_cfg (f : Fault) : (s.faulted f).cfg = s.cfg := rfl
@[simp] theorem State.faulted_phase (f : Fault) : (s.faulted f).phase = s.phase := rfl
@[simp] theorem State.faulted_sample (f : Fault) : (s.faulted f).sample = s.sample := rfl
@[simp] theorem State.faulted_target (f : Fault) : (s.faulted f).target = s.target := rfl
@[simp] theorem State.faulted_cacheVld (f : Fault) : (s.faulted f).cacheVld = s.cacheVld := rfl
@[simp] theorem State.faulted_cacheVal (f : Fault) : (s.faulted f).cacheVal = s.cacheVal := rfl
@[simp] theorem State.faulted_sel (f : Fault) : (s.faulted f).sel = s.sel := rfl
@[simp] theorem State.faulted_sclk (f : Fault) : (s.faulted f).sclk = s.sclk := rfl
@[simp] theorem State.faulted_sdata (f : Fault) : (s.faulted f).sdata = s.sdata := rfl
@[simp] theorem State.faulted_adc (f : Fault) : (s.faulted f).adc = s.adc := rfl
@[simp] theorem State.faulted_tmr (f : Fault) : (s.faulted f).tmr = s.tmr := rfl
@[simp] theorem State.faulted_wpDone (f : Fault) : (s.faulted f).wpDone = s.wpDone := rfl
@[simp] theorem State.faulted_fault (f : Fault) : (s.faulted f).fault = s.fault.or (some f) := rfl
@[simp] theorem State.faulted_adcSync (f : Fault) : (s.faulted f).adcSync = s.adcSync := rfl
@[simp] theorem State.faulted_tmrSync (f : Fault) : (s.faulted f).tmrSync = s.tmrSync := rfl
@[simp] theorem State.faulted_shreg (f : Fault) : (s.faulted f).shreg = s.shreg := rfl
@[simp] theorem State.faulted_bitcnt (f : Fault) : (s.faulted f).bitcnt = s.bitcnt := rfl
@[simp] theorem State.faulted_adcStart (f : Fault) : (s.faulted f).adcStart = s.adcStart := rfl
@[simp] theorem State.faulted_tmrArm (f : Fault) : (s.faulted f).tmrArm = s.tmrArm := rfl
@[simp] theorem State.faulted_adcData (f : Fault) : (s.faulted f).adcData = s.adcData := rfl
@[simp] theorem State.faulted_trace (f : Fault) : (s.faulted f).trace = s.trace := rfl
@[simp] theorem State.faulted_turns (f : Fault) : (s.faulted f).turns = s.turns := rfl
@[simp] theorem State.faulted_ret (f : Fault) : (s.faulted f).ret = s.ret := rfl

/-! ### `afterBytes` -/

@[simp] theorem State.afterBytes_cfg (es : List PinEvent) (l : Bool) : (s.afterBytes es l).cfg = s.cfg := rfl
@[simp] theorem State.afterBytes_phase (es : List PinEvent) (l : Bool) : (s.afterBytes es l).phase = s.phase := rfl
@[simp] theorem State.afterBytes_sample (es : List PinEvent) (l : Bool) : (s.afterBytes es l).sample = s.sample := rfl
@[simp] theorem State.afterBytes_target (es : List PinEvent) (l : Bool) : (s.afterBytes es l).target = s.target := rfl
@[simp] theorem State.afterBytes_cacheVld (es : List PinEvent) (l : Bool) : (s.afterBytes es l).cacheVld = s.cacheVld := rfl
@[simp] theorem State.afterBytes_cacheVal (es : List PinEvent) (l : Bool) : (s.afterBytes es l).cacheVal = s.cacheVal := rfl
@[simp] theorem State.afterBytes_sel (es : List PinEvent) (l : Bool) : (s.afterBytes es l).sel = s.sel := rfl
@[simp] theorem State.afterBytes_sclk (es : List PinEvent) (l : Bool) : (s.afterBytes es l).sclk = false := rfl
@[simp] theorem State.afterBytes_sdata (es : List PinEvent) (l : Bool) : (s.afterBytes es l).sdata = l := rfl
@[simp] theorem State.afterBytes_adc (es : List PinEvent) (l : Bool) : (s.afterBytes es l).adc = s.adc := rfl
@[simp] theorem State.afterBytes_tmr (es : List PinEvent) (l : Bool) : (s.afterBytes es l).tmr = s.tmr := rfl
@[simp] theorem State.afterBytes_wpDone (es : List PinEvent) (l : Bool) : (s.afterBytes es l).wpDone = s.wpDone := rfl
@[simp] theorem State.afterBytes_fault (es : List PinEvent) (l : Bool) : (s.afterBytes es l).fault = s.fault := rfl
@[simp] theorem State.afterBytes_adcSync (es : List PinEvent) (l : Bool) : (s.afterBytes es l).adcSync = s.adcSync := rfl
@[simp] theorem State.afterBytes_tmrSync (es : List PinEvent) (l : Bool) : (s.afterBytes es l).tmrSync = s.tmrSync := rfl
@[simp] theorem State.afterBytes_shreg (es : List PinEvent) (l : Bool) : (s.afterBytes es l).shreg = 0 := rfl
@[simp] theorem State.afterBytes_bitcnt (es : List PinEvent) (l : Bool) : (s.afterBytes es l).bitcnt = 0 := rfl
@[simp] theorem State.afterBytes_adcStart (es : List PinEvent) (l : Bool) : (s.afterBytes es l).adcStart = s.adcStart := rfl
@[simp] theorem State.afterBytes_tmrArm (es : List PinEvent) (l : Bool) : (s.afterBytes es l).tmrArm = s.tmrArm := rfl
@[simp] theorem State.afterBytes_adcData (es : List PinEvent) (l : Bool) : (s.afterBytes es l).adcData = s.adcData := rfl
@[simp] theorem State.afterBytes_trace (es : List PinEvent) (l : Bool) : (s.afterBytes es l).trace = s.trace ++ es := rfl
@[simp] theorem State.afterBytes_turns (es : List PinEvent) (l : Bool) : (s.afterBytes es l).turns = s.turns := rfl
@[simp] theorem State.afterBytes_ret (es : List PinEvent) (l : Bool) : (s.afterBytes es l).ret = s.ret := rfl

/-! ### `adcDoneEvent` -/

@[simp] theorem adcDoneEvent_cfg (d : S16) : (adcDoneEvent d s).cfg = s.cfg := rfl
@[simp] theorem adcDoneEvent_phase (d : S16) : (adcDoneEvent d s).phase = s.phase := rfl
@[simp] theorem adcDoneEvent_sample (d : S16) : (adcDoneEvent d s).sample = s.sample := rfl
@[simp] theorem adcDoneEvent_target (d : S16) : (adcDoneEvent d s).target = s.target := rfl
@[simp] theorem adcDoneEvent_cacheVld (d : S16) : (adcDoneEvent d s).cacheVld = s.cacheVld := rfl
@[simp] theorem adcDoneEvent_cacheVal (d : S16) : (adcDoneEvent d s).cacheVal = s.cacheVal := rfl
@[simp] theorem adcDoneEvent_sel (d : S16) : (adcDoneEvent d s).sel = s.sel := rfl
@[simp] theorem adcDoneEvent_sclk (d : S16) : (adcDoneEvent d s).sclk = s.sclk := rfl
@[simp] theorem adcDoneEvent_sdata (d : S16) : (adcDoneEvent d s).sdata = s.sdata := rfl
@[simp] theorem adcDoneEvent_adc (d : S16) : (adcDoneEvent d s).adc = s.adc.latch := rfl
@[simp] theorem adcDoneEvent_tmr (d : S16) : (adcDoneEvent d s).tmr = s.tmr := rfl
@[simp] theorem adcDoneEvent_wpDone (d : S16) : (adcDoneEvent d s).wpDone = s.wpDone := rfl
@[simp] theorem adcDoneEvent_fault (d : S16) : (adcDoneEvent d s).fault = s.fault := rfl
@[simp] theorem adcDoneEvent_adcSync (d : S16) : (adcDoneEvent d s).adcSync = s.adcSync := rfl
@[simp] theorem adcDoneEvent_tmrSync (d : S16) : (adcDoneEvent d s).tmrSync = s.tmrSync := rfl
@[simp] theorem adcDoneEvent_shreg (d : S16) : (adcDoneEvent d s).shreg = s.shreg := rfl
@[simp] theorem adcDoneEvent_bitcnt (d : S16) : (adcDoneEvent d s).bitcnt = s.bitcnt := rfl
@[simp] theorem adcDoneEvent_adcStart (d : S16) : (adcDoneEvent d s).adcStart = s.adcStart := rfl
@[simp] theorem adcDoneEvent_tmrArm (d : S16) : (adcDoneEvent d s).tmrArm = s.tmrArm := rfl
@[simp] theorem adcDoneEvent_adcData (d : S16) : (adcDoneEvent d s).adcData = d := rfl
@[simp] theorem adcDoneEvent_trace (d : S16) : (adcDoneEvent d s).trace = s.trace := rfl
@[simp] theorem adcDoneEvent_turns (d : S16) : (adcDoneEvent d s).turns = s.turns := rfl
@[simp] theorem adcDoneEvent_ret (d : S16) : (adcDoneEvent d s).ret = s.ret := rfl

/-! ### `tmrExpiredEvent` -/

@[simp] theorem tmrExpiredEvent_cfg : (tmrExpiredEvent s).cfg = s.cfg := rfl
@[simp] theorem tmrExpiredEvent_phase : (tmrExpiredEvent s).phase = s.phase := rfl
@[simp] theorem tmrExpiredEvent_sample : (tmrExpiredEvent s).sample = s.sample := rfl
@[simp] theorem tmrExpiredEvent_target : (tmrExpiredEvent s).target = s.target := rfl
@[simp] theorem tmrExpiredEvent_cacheVld : (tmrExpiredEvent s).cacheVld = s.cacheVld := rfl
@[simp] theorem tmrExpiredEvent_cacheVal : (tmrExpiredEvent s).cacheVal = s.cacheVal := rfl
@[simp] theorem tmrExpiredEvent_sel : (tmrExpiredEvent s).sel = s.sel := rfl
@[simp] theorem tmrExpiredEvent_sclk : (tmrExpiredEvent s).sclk = s.sclk := rfl
@[simp] theorem tmrExpiredEvent_sdata : (tmrExpiredEvent s).sdata = s.sdata := rfl
@[simp] theorem tmrExpiredEvent_adc : (tmrExpiredEvent s).adc = s.adc := rfl
@[simp] theorem tmrExpiredEvent_tmr : (tmrExpiredEvent s).tmr = s.tmr.latch := rfl
@[simp] theorem tmrExpiredEvent_wpDone : (tmrExpiredEvent s).wpDone = s.wpDone := rfl
@[simp] theorem tmrExpiredEvent_fault : (tmrExpiredEvent s).fault = s.fault := rfl
@[simp] theorem tmrExpiredEvent_adcSync : (tmrExpiredEvent s).adcSync = s.adcSync := rfl
@[simp] theorem tmrExpiredEvent_tmrSync : (tmrExpiredEvent s).tmrSync = s.tmrSync := rfl
@[simp] theorem tmrExpiredEvent_shreg : (tmrExpiredEvent s).shreg = s.shreg := rfl
@[simp] theorem tmrExpiredEvent_bitcnt : (tmrExpiredEvent s).bitcnt = s.bitcnt := rfl
@[simp] theorem tmrExpiredEvent_adcStart : (tmrExpiredEvent s).adcStart = s.adcStart := rfl
@[simp] theorem tmrExpiredEvent_tmrArm : (tmrExpiredEvent s).tmrArm = s.tmrArm := rfl
@[simp] theorem tmrExpiredEvent_adcData : (tmrExpiredEvent s).adcData = s.adcData := rfl
@[simp] theorem tmrExpiredEvent_trace : (tmrExpiredEvent s).trace = s.trace := rfl
@[simp] theorem tmrExpiredEvent_turns : (tmrExpiredEvent s).turns = s.turns := rfl
@[simp] theorem tmrExpiredEvent_ret : (tmrExpiredEvent s).ret = s.ret := rfl

/-! ### `clockPorts` -/

@[simp] theorem State.clockPorts_cfg (p : PortLevels) : (s.clockPorts p).cfg = s.cfg := rfl
@[simp] theorem State.clockPorts_phase (p : PortLevels) : (s.clockPorts p).phase = s.phase := rfl
@[simp] theorem State.clockPorts_sample (p : PortLevels) : (s.clockPorts p).sample = s.sample := rfl
@[simp] theorem State.clockPorts_target (p : PortLevels) : (s.clockPorts p).target = s.target := rfl
@[simp] theorem State.clockPorts_cacheVld (p : PortLevels) : (s.clockPorts p).cacheVld = s.cacheVld := rfl
@[simp] theorem State.clockPorts_cacheVal (p : PortLevels) : (s.clockPorts p).cacheVal = s.cacheVal := rfl
@[simp] theorem State.clockPorts_sel (p : PortLevels) : (s.clockPorts p).sel = s.sel := rfl
@[simp] theorem State.clockPorts_sclk (p : PortLevels) : (s.clockPorts p).sclk = s.sclk := rfl
@[simp] theorem State.clockPorts_sdata (p : PortLevels) : (s.clockPorts p).sdata = s.sdata := rfl
@[simp] theorem State.clockPorts_adc (p : PortLevels) : (s.clockPorts p).adc = s.adc := rfl
@[simp] theorem State.clockPorts_tmr (p : PortLevels) : (s.clockPorts p).tmr = s.tmr := rfl
@[simp] theorem State.clockPorts_wpDone (p : PortLevels) : (s.clockPorts p).wpDone = s.wpDone := rfl
@[simp] theorem State.clockPorts_fault (p : PortLevels) : (s.clockPorts p).fault = s.fault := rfl
@[simp] theorem State.clockPorts_adcSync (p : PortLevels) : (s.clockPorts p).adcSync = s.adcSync.clock p.adcDone := rfl
@[simp] theorem State.clockPorts_tmrSync (p : PortLevels) : (s.clockPorts p).tmrSync = s.tmrSync.clock p.tmrExpired := rfl
@[simp] theorem State.clockPorts_shreg (p : PortLevels) : (s.clockPorts p).shreg = s.shreg := rfl
@[simp] theorem State.clockPorts_bitcnt (p : PortLevels) : (s.clockPorts p).bitcnt = s.bitcnt := rfl
@[simp] theorem State.clockPorts_adcStart (p : PortLevels) : (s.clockPorts p).adcStart = s.adcStart := rfl
@[simp] theorem State.clockPorts_tmrArm (p : PortLevels) : (s.clockPorts p).tmrArm = s.tmrArm := rfl
@[simp] theorem State.clockPorts_adcData (p : PortLevels) : (s.clockPorts p).adcData = s.adcData := rfl
@[simp] theorem State.clockPorts_trace (p : PortLevels) : (s.clockPorts p).trace = s.trace := rfl
@[simp] theorem State.clockPorts_ret (p : PortLevels) : (s.clockPorts p).ret = s.ret := rfl

@[simp] theorem State.clockPorts_turns (p : PortLevels) :
    (s.clockPorts p).turns = s.turns ++
      (risingEvents (s.adcSync.clock p.adcDone) (s.tmrSync.clock p.tmrExpired) p.adcData).map .now := rfl

/-- A clock keeps the depth of the chain. -/
@[simp] theorem Synchronizer.clock_length (z : Synchronizer) (level : Bool) :
    (z.clock level).stages.length = z.stages.length := by
  simp [Synchronizer.clock]

end Sys2Proof.Machine
end

