-- ==== Sys2Proof/Laws/Ops.lean ====
section
/-! SUPPORT. Sequencing of operations that may raise, and the interrupt latches: one lemma per case. -/

namespace Sys2Proof.Machine

@[simp] theorem Res.andThen_done (s : State) (next : State → Res) : (Res.done s).andThen next = next s := rfl

@[simp] theorem Res.andThen_raised (f : Fault) (s : State) (next : State → Res) :
    (Res.raised f s).andThen next = .raised f s := rfl

@[simp] theorem Res.withValue_ok {α : Type} (a : α) (s : State) (next : α → Res) :
    Res.withValue (.ok a) s next = next a := rfl

@[simp] theorem Res.withValue_error {α : Type} (f : Fault) (s : State) (next : α → Res) :
    Res.withValue (.error f : Except Fault α) s next = .raised f s := rfl

@[simp] theorem Res.settled_done (s : State) : (Res.done s).settled = s := rfl

@[simp] theorem Res.settled_raised (f : Fault) (s : State) : (Res.raised f s).settled = s.faulted f := rfl

@[simp] theorem Res.outcome_done (s : State) : (Res.done s).outcome = .next s := rfl

@[simp] theorem Res.outcome_raised (f : Fault) (s : State) : (Res.raised f s).outcome = .next (s.faulted f) := rfl

@[simp] theorem readValue_some (e : Element) (v : U10) : readValue e (some v) = .ok v := rfl

@[simp] theorem readValue_none (e : Element) : readValue e none = .error (.unwritten e) := rfl

/-- An operation's outcome is always a next state: the finished one, or the one where the raise is recorded. -/
theorem Res.outcome_next (r : Res) :
    (∃ s, r = .done s ∧ r.outcome = .next s) ∨ ∃ f s, r = .raised f s ∧ r.outcome = .next (s.faulted f) := by
  cases r with
  | done s => exact .inl ⟨s, rfl, rfl⟩
  | raised f s => exact .inr ⟨f, s, rfl, rfl⟩

@[simp] theorem IrqLatch.arm_eq (l : IrqLatch) : l.arm = { ie := true, pend := false } := rfl

@[simp] theorem IrqLatch.take_eq (l : IrqLatch) : l.take = { ie := false, pend := false } := rfl

theorem IrqLatch.latch_enabled {l : IrqLatch} (h : l.ie = true) : l.latch = { ie := true, pend := true } := by
  cases l; simp_all [IrqLatch.latch]

theorem IrqLatch.latch_disabled {l : IrqLatch} (h : l.ie = false) : l.latch = l := by
  simp [IrqLatch.latch, h]

@[simp] theorem IrqLatch.latch_ie (l : IrqLatch) : l.latch.ie = l.ie := by
  unfold IrqLatch.latch; split <;> rfl

/-- A latched source is pending only while enabled, if it was before. -/
theorem IrqLatch.latch_pend {l : IrqLatch} (h : l.pend = true → l.ie = true) :
    l.latch.pend = true → l.latch.ie = true := by
  cases hie : l.ie with
  | true => simp [hie]
  | false => rw [IrqLatch.latch_disabled hie]; simpa [hie] using h

end Sys2Proof.Machine
end

