-- ==== Sys2Proof/Laws/Serial.lean ====
section
/-! SUPPORT. What the send operations do, once: with a channel selected they append whole bytes and leave the lines and the shifter as
R142 and R36 say; with none they raise and change nothing. -/

namespace Sys2Proof.Machine

/-- The levels the shift register's top bit takes over the eight cells. -/
theorem byteBits_eq_shifted (b : Byte) :
    byteBits b = [b.msb, (b <<< 1).msb, (b <<< 1 <<< 1).msb, (b <<< 1 <<< 1 <<< 1).msb, (b <<< 1 <<< 1 <<< 1 <<< 1).msb,
      (b <<< 1 <<< 1 <<< 1 <<< 1 <<< 1).msb, (b <<< 1 <<< 1 <<< 1 <<< 1 <<< 1 <<< 1).msb,
      (b <<< 1 <<< 1 <<< 1 <<< 1 <<< 1 <<< 1 <<< 1).msb] := by
  simp [byteBits, BitVec.msb_eq_getLsbD_last]

theorem shifted_out (b : Byte) : b <<< 1 <<< 1 <<< 1 <<< 1 <<< 1 <<< 1 <<< 1 <<< 1 = 0 := by
  apply BitVec.eq_of_getLsbD_eq
  intro i hi
  simp

theorem bitCell_eq (s : State) :
    bitCell s = { s with
      trace := s.trace ++ cellEvents s.shreg.msb, sclk := false, sdata := s.shreg.msb
      shreg := s.shreg <<< 1, bitcnt := s.bitcnt - 1 } := by
  simp [bitCell, State.driveDat, State.driveClk, State.emit, cellEvents]

/-- R141, R142: eight cells of a loaded byte. -/
theorem shiftOut_byte (b : Byte) (s : State) :
    shiftOut 8 { s with shreg := b, bitcnt := 8 } = s.afterBytes (byteEvents b) (b.getLsbD 0) := by
  have last : b.getLsbD 0 = (b <<< 1 <<< 1 <<< 1 <<< 1 <<< 1 <<< 1 <<< 1).msb := by
    simp [BitVec.msb_eq_getLsbD_last]
  simp only [shiftOut, bitCell_eq, State.afterBytes, byteEvents, byteBits_eq_shifted, last, shifted_out]
  simp [List.append_assoc]

theorem sendByte_selected {k : Channel} {s : State} (h : s.sel = some k) (b : Byte) :
    sendByte b s = .done (s.afterBytes (byteEvents b) (b.getLsbD 0)) := by
  unfold sendByte
  split
  · next none => simp [none] at h
  · exact congrArg Res.done (shiftOut_byte b s)

theorem sendByte_unselected {s : State} (h : s.sel = none) (b : Byte) :
    sendByte b s = .raised (.sendUnselected (.byte b)) s := by
  simp [sendByte, h]

@[simp] theorem State.afterBytes_afterBytes (s : State) (es fs : List PinEvent) (l m : Bool) :
    (s.afterBytes es l).afterBytes fs m = s.afterBytes (es ++ fs) m := by
  simp [State.afterBytes, List.append_assoc]

/-- Two bytes in a row under one selection. -/
theorem sendByte_sendByte {k : Channel} {s : State} (h : s.sel = some k) (b c : Byte) :
    (sendByte b s).andThen (sendByte c) = .done (s.afterBytes (byteEvents b ++ byteEvents c) (c.getLsbD 0)) := by
  rw [sendByte_selected h, Res.andThen_done, sendByte_selected (k := k) (by simpa using h)]
  simp

theorem valueByteHigh_eq (cfg : Config) (p : U10) : valueByteHigh cfg p = frameHigh (valueFrameWord cfg.cmdTag p) := by
  unfold valueByteHigh frameHigh valueFrameWord
  apply BitVec.eq_of_getLsbD_eq
  intro i hi
  simp only [BitVec.getLsbD_append, BitVec.getLsbD_extractLsb']
  have : i < 8 := hi
  rcases (by omega : i = 0 ∨ i = 1 ∨ i = 2 ∨ i = 3 ∨ i = 4 ∨ i = 5 ∨ i = 6 ∨ i = 7) with
    h | h | h | h | h | h | h | h <;> subst h <;> simp

theorem valueByteLow_eq (cfg : Config) (p : U10) : valueByteLow p = frameLow (valueFrameWord cfg.cmdTag p) := by
  unfold valueByteLow frameLow valueFrameWord
  apply BitVec.eq_of_getLsbD_eq
  intro i hi
  simp only [BitVec.getLsbD_append, BitVec.getLsbD_extractLsb']
  have : i < 8 := hi
  have : i < 10 := by omega
  simp [*]

theorem sendFilterValue_selected {k : Channel} {s : State} (h : s.sel = some k) (v : U10) :
    sendFilterValue v s = .done (s.afterBytes (wordEvents (valueFrameWord s.cfg.cmdTag (payloadOf s.cfg v)))
      ((payloadOf s.cfg v).getLsbD 0)) := by
  simp only [sendFilterValue, h]
  rw [sendByte_sendByte h, wordEvents, valueByteHigh_eq, ← valueByteLow_eq]
  simp [valueByteLow]

theorem sendFilterValue_unselected {s : State} (h : s.sel = none) (v : U10) :
    sendFilterValue v s = .raised (.sendUnselected (.value v)) s := by
  simp [sendFilterValue, h]

theorem frameHigh_wpFrameWord (a b : Byte) : frameHigh (wpFrameWord a b) = a :=
  BitVec.extractLsb'_append_eq_left

theorem frameLow_wpFrameWord (a b : Byte) : frameLow (wpFrameWord a b) = b :=
  BitVec.extractLsb'_append_eq_right

theorem sendWp_selected {k : Channel} {s : State} (h : s.sel = some k) :
    sendWp s = .done (s.afterBytes (wordEvents (wpWord s.cfg)) (s.cfg.wpByte1.getLsbD 0)) := by
  simp only [sendWp, h]
  rw [sendByte_sendByte h, wordEvents, wpWord, frameHigh_wpFrameWord, frameLow_wpFrameWord]

theorem sendWp_unselected {s : State} (h : s.sel = none) : sendWp s = .raised (.sendUnselected .nothing) s := by
  simp [sendWp, h]

theorem sendFrame_selected {k : Channel} {s : State} (h : s.sel = some k) (w : FrameWord) :
    sendFrame w s = .done (s.afterBytes (wordEvents w) ((frameLow w).getLsbD 0)) := by
  rw [sendFrame, sendByte_sendByte h, wordEvents]

theorem sendFrame_unselected {s : State} (h : s.sel = none) (w : FrameWord) :
    sendFrame w s = .raised (.sendUnselected (.byte (frameHigh w))) s := by
  rw [sendFrame, sendByte_unselected h, Res.andThen_raised]

end Sys2Proof.Machine
end

