-- ==== Sys2Proof/Laws/ChipSelect.lean ====
section
/-! SUPPORT. What the channel operations do, once per case. -/

namespace Sys2Proof.Machine

theorem select_idle {s : State} (h : s.sel = none) (k : Channel) :
    select k s = .done { s with sel := some k, trace := s.trace ++ [.cs (csMask (some k))] } := by
  simp [select, h, State.emit]

theorem select_busy {j : Channel} {s : State} (h : s.sel = some j) (k : Channel) :
    select k s = .raised (.csOverlap j k) s := by
  simp [select, h]

theorem deselect_eq (s : State) :
    deselect s = .done { s with sel := none, trace := s.trace ++ [.cs (csMask none)] } := rfl

/-- One whole frame from idle: select, send, deselect. -/
theorem frame_from_idle {s : State} (h : s.sel = none) (k : Channel) (send : State → Res) (w : FrameWord) (last : Bool)
    (hsend : ∀ t : State, t.sel = some k → t.cfg = s.cfg → send t = .done (t.afterBytes (wordEvents w) last)) :
    ((select k s).andThen send).andThen deselect = .done (s.afterBytes (frameEvents k w) last) := by
  rw [select_idle h, Res.andThen_done,
    hsend { s with sel := some k, trace := s.trace ++ [.cs (csMask (some k))] } rfl rfl, Res.andThen_done, deselect_eq]
  simp [State.afterBytes, frameEvents, h]

theorem disableWp_idle {s : State} (h : s.sel = none) (k : Channel) :
    disableWp k s = .done { s.afterBytes (frameEvents k (wpWord s.cfg)) (s.cfg.wpByte1.getLsbD 0) with
      wpDone := s.wpDone.set k true } := by
  rw [disableWp, frame_from_idle h k sendWp (wpWord s.cfg) (s.cfg.wpByte1.getLsbD 0)]
  · rfl
  · intro t ht hcfg
    rw [sendWp_selected ht, hcfg]

theorem disableWp_busy {j : Channel} {s : State} (h : s.sel = some j) (k : Channel) :
    disableWp k s = .raised (.csOverlap j k) s := by
  simp [disableWp, select_busy h]

theorem changed_open {s : State} {k : Channel} {v : U10} (h : GateOpen s k v) : s.changed k v = .ok true := by
  rcases h with h | h | ⟨old, h, hne⟩
  · simp [State.changed, h]
  · simp only [State.changed, h]; split <;> rfl
  · unfold State.changed
    split
    · rfl
    · split
      · rfl
      · simp [h, hne]

theorem changed_shut {s : State} {k : Channel} {v : U10} (h : GateShut s k v) : s.changed k v = .ok false := by
  obtain ⟨h1, h2, h3⟩ := h
  unfold State.changed
  simp [h1, h2, h3]

theorem maybeWrite_unprotected {s : State} {k : Channel} (v : U10) (h : s.wpDone[k] = false) :
    maybeWrite k v s = .raised (.writeBeforeWp k) s := by
  rw [maybeWrite, if_pos h]

theorem maybeWrite_shut {s : State} {k : Channel} {v : U10} (hw : s.wpDone[k] = true) (h : s.changed k v = .ok false) :
    maybeWrite k v s = .done s := by
  rw [maybeWrite, if_neg (by simp [hw]), h]; rfl

theorem maybeWrite_open {s : State} {k : Channel} {v : U10} (hw : s.wpDone[k] = true) (h : s.changed k v = .ok true)
    (hs : s.sel = none) :
    maybeWrite k v s = .done { s.afterBytes (valueEvents s.cfg k v) ((payloadOf s.cfg v).getLsbD 0) with
      cacheVal := s.cacheVal.set k (some v)
      cacheVld := s.cacheVld.set k true } := by
  rw [maybeWrite, if_neg (by simp [hw]), h, Res.withValue_ok, if_pos rfl,
    frame_from_idle hs k (sendFilterValue v) (valueFrameWord s.cfg.cmdTag (payloadOf s.cfg v)) ((payloadOf s.cfg v).getLsbD 0)]
  · rfl
  · intro t ht hcfg
    rw [sendFilterValue_selected ht, hcfg]

theorem maybeWrite_busy {s : State} {j k : Channel} {v : U10} (hw : s.wpDone[k] = true) (h : s.changed k v = .ok true)
    (hs : s.sel = some j) : maybeWrite k v s = .raised (.csOverlap j k) s := by
  rw [maybeWrite, if_neg (by simp [hw]), h, Res.withValue_ok, if_pos rfl, select_busy hs]; rfl

theorem maybeWrite_unwritten {s : State} {k : Channel} {v : U10} {f : Fault} (hw : s.wpDone[k] = true)
    (h : s.changed k v = .error f) : maybeWrite k v s = .raised f s := by
  rw [maybeWrite, if_neg (by simp [hw]), h]; rfl

/-- The arm of `MAYBE_WRITE` for each channel is the one shared operation. -/
theorem exec_maybeWriteOf (k : Channel) (s : State) : exec (maybeWriteOf k) s = (maybeWriteTarget k s).outcome := by
  match k with
  | 0 => rfl
  | 1 => rfl
  | 2 => rfl
  | 3 => rfl

theorem maybeWriteTarget_some {s : State} {k : Channel} {v : U10} (h : s.target[k] = some v) :
    maybeWriteTarget k s = maybeWrite k v s := by
  rw [maybeWriteTarget, h]; rfl

theorem maybeWriteTarget_none {s : State} {k : Channel} (h : s.target[k] = none) :
    maybeWriteTarget k s = .raised (.unwritten (.target k)) s := by
  rw [maybeWriteTarget, h]; rfl

/-- `MAYBE_WRITE(k, target[k])`, every way it can end. -/
theorem maybeWriteTarget_cases (k : Channel) (s : State) :
    (∃ f, maybeWriteTarget k s = .raised f s) ∨ maybeWriteTarget k s = .done s ∨
    ∃ v, s.target[k] = some v ∧ s.wpDone[k] = true ∧ s.changed k v = .ok true ∧ s.sel = none ∧
      maybeWriteTarget k s = .done { s.afterBytes (valueEvents s.cfg k v) ((payloadOf s.cfg v).getLsbD 0) with
        cacheVal := s.cacheVal.set k (some v)
        cacheVld := s.cacheVld.set k true } := by
  cases ht : s.target[k] with
  | none => exact .inl ⟨_, maybeWriteTarget_none ht⟩
  | some v =>
    rw [maybeWriteTarget_some ht]
    cases hw : s.wpDone[k] with
    | false => exact .inl ⟨_, maybeWrite_unprotected v hw⟩
    | true =>
      cases hc : s.changed k v with
      | error f => exact .inl ⟨f, maybeWrite_unwritten hw hc⟩
      | ok b =>
        cases b with
        | false => exact .inr (.inl (maybeWrite_shut hw hc))
        | true =>
          cases hs : s.sel with
          | some j => exact .inl ⟨_, maybeWrite_busy hw hc hs⟩
          | none => exact .inr (.inr ⟨v, rfl, rfl, hc, rfl, maybeWrite_open hw hc hs⟩)

end Sys2Proof.Machine
end

