-- ==== Sys2Proof/Laws/Memory.lean ====
section
/-! SUPPORT. What an admissible ROM (spec/20_memory.md R64) says of its words, once; every `Config` holds one. -/

namespace Sys2Proof.Machine

theorem mem_curveNos (c : CurveNo) : c ∈ ([0, 1, 2, 3] : List CurveNo) := by
  revert c; decide

theorem mem_pointNos (p : PointNo) : p ∈ ([0, 1, 2, 3, 4, 5, 6, 7] : List PointNo) := by
  revert p; decide

theorem mem_lowerPointNos (p : PointNo) : p.toNat ≤ 6 ↔ p ∈ ([0, 1, 2, 3, 4, 5, 6] : List PointNo) := by
  revert p; decide

/-- R64, the check and its words agree. -/
theorem admissible_iff (p : Params) : p.curveRom.admissible p.xMax = true ↔ RomConditions p := by
  unfold CurveRom.admissible RomConditions
  rw [List.all_eq_true]
  constructor
  · intro h c
    have hc := h c (mem_curveNos c)
    simp only [CurveRom.curveAdmissible, Bool.and_eq_true] at hc
    obtain ⟨⟨⟨h0, hlt⟩, h7⟩, hfit⟩ := hc
    refine ⟨?_, ?_, ?_, ?_⟩
    · simp only [CurveRom.startsAtZero, beq_iff_eq] at h0; rw [h0]; rfl
    · intro q hq
      simp only [CurveRom.strictlyIncreasing, List.all_eq_true, decide_eq_true_eq] at hlt
      exact hlt q ((mem_lowerPointNos q).1 hq)
    · simpa [CurveRom.endsAt] using h7
    · intro q
      simp only [CurveRom.fitsFifteenBits, List.all_eq_true, Bool.and_eq_true, decide_eq_true_eq] at hfit
      exact hfit q (mem_pointNos q)
  · intro h c _
    obtain ⟨h0, hlt, h7, hfit⟩ := h c
    simp only [CurveRom.curveAdmissible, Bool.and_eq_true]
    refine ⟨⟨⟨?_, ?_⟩, ?_⟩, ?_⟩
    · simp only [CurveRom.startsAtZero, beq_iff_eq]
      exact BitVec.eq_of_toNat_eq (by simpa using h0)
    · simp only [CurveRom.strictlyIncreasing, List.all_eq_true, decide_eq_true_eq]
      exact fun q hq => hlt q ((mem_lowerPointNos q).2 hq)
    · simpa [CurveRom.endsAt] using h7
    · simp only [CurveRom.fitsFifteenBits, List.all_eq_true, Bool.and_eq_true, decide_eq_true_eq]
      exact fun q _ => hfit q

variable (cfg : Config) (c : CurveNo)

theorem config_romConditions : RomConditions cfg.toParams :=
  (admissible_iff cfg.toParams).1 cfg.romAdmissible

theorem x_zero : (cfg.curveRom.x c 0).toNat = 0 :=
  (config_romConditions cfg c).1

theorem x_lt_next (p : PointNo) (h : p.toNat ≤ 6) : (cfg.curveRom.x c p).toNat < (cfg.curveRom.x c (p + 1)).toNat :=
  (config_romConditions cfg c).2.1 p h

theorem x_last : (cfg.curveRom.x c 7).toNat = cfg.xMax.toNat :=
  (config_romConditions cfg c).2.2.1

theorem x_le (p : PointNo) : (cfg.curveRom.x c p).toNat ≤ 32767 :=
  ((config_romConditions cfg c).2.2.2 p).1

theorem y_le (p : PointNo) : (cfg.curveRom.y c p).toNat ≤ 32767 :=
  ((config_romConditions cfg c).2.2.2 p).2

/-- R64 (b), written out over the eight points. -/
theorem x_chain :
    (cfg.curveRom.x c 0).toNat < (cfg.curveRom.x c 1).toNat ∧ (cfg.curveRom.x c 1).toNat < (cfg.curveRom.x c 2).toNat ∧
    (cfg.curveRom.x c 2).toNat < (cfg.curveRom.x c 3).toNat ∧ (cfg.curveRom.x c 3).toNat < (cfg.curveRom.x c 4).toNat ∧
    (cfg.curveRom.x c 4).toNat < (cfg.curveRom.x c 5).toNat ∧ (cfg.curveRom.x c 5).toNat < (cfg.curveRom.x c 6).toNat ∧
    (cfg.curveRom.x c 6).toNat < (cfg.curveRom.x c 7).toNat :=
  ⟨x_lt_next cfg c 0 (by decide), x_lt_next cfg c 1 (by decide), x_lt_next cfg c 2 (by decide),
    x_lt_next cfg c 3 (by decide), x_lt_next cfg c 4 (by decide), x_lt_next cfg c 5 (by decide),
    x_lt_next cfg c 6 (by decide)⟩

end Sys2Proof.Machine
end

