-- ==== Sys2Proof/Laws/Interpolator.lean ====
section
/-! SUPPORT. Segment selection on an admissible ROM, once for all: which index each range of `xs` has (spec/40_interpolator.md R102),
and that no segment of it has `dx` = 0. -/

namespace Sys2Proof.Machine

theorem scaleSample_toNat (v : U10) : (scaleSample v).toNat = 32 * v.toNat := by
  have := v.isLt
  simp only [scaleSample, BitVec.toNat_shiftLeft, BitVec.truncate_eq_setWidth, BitVec.toNat_setWidth, Nat.shiftLeft_eq]
  omega

/-- The two spellings of the index of R102 agree. -/
theorem exactIndex_eq (rom : CurveRom) (c : CurveNo) (v : U10) :
    exactIndex rom c v = segmentIndex rom c (scaleSample v) := by
  unfold exactIndex segmentIndex
  congr 1
  apply List.countP_congr
  intro k _
  rw [decide_eq_true_iff, decide_eq_true_iff, scaleSample_toNat]
  unfold exactX exactXs
  omega

variable (cfg : Config) (c : CurveNo) (xs : BitVec 16)

/-- R102 on an admissible ROM: the seven ranges of `xs` and their indexes. -/
theorem segmentIndex_cases :
    (xs.toNat ≤ (cfg.curveRom.x c 1).toNat ∧ segmentIndex cfg.curveRom c xs = 0) ∨
    ((cfg.curveRom.x c 1).toNat < xs.toNat ∧ xs.toNat ≤ (cfg.curveRom.x c 2).toNat ∧ segmentIndex cfg.curveRom c xs = 1) ∨
    ((cfg.curveRom.x c 2).toNat < xs.toNat ∧ xs.toNat ≤ (cfg.curveRom.x c 3).toNat ∧ segmentIndex cfg.curveRom c xs = 2) ∨
    ((cfg.curveRom.x c 3).toNat < xs.toNat ∧ xs.toNat ≤ (cfg.curveRom.x c 4).toNat ∧ segmentIndex cfg.curveRom c xs = 3) ∨
    ((cfg.curveRom.x c 4).toNat < xs.toNat ∧ xs.toNat ≤ (cfg.curveRom.x c 5).toNat ∧ segmentIndex cfg.curveRom c xs = 4) ∨
    ((cfg.curveRom.x c 5).toNat < xs.toNat ∧ xs.toNat ≤ (cfg.curveRom.x c 6).toNat ∧ segmentIndex cfg.curveRom c xs = 5) ∨
    ((cfg.curveRom.x c 6).toNat < xs.toNat ∧ segmentIndex cfg.curveRom c xs = 6) := by
  obtain ⟨-, h12, h23, h34, h45, h56, -⟩ := x_chain cfg c
  unfold segmentIndex
  simp only [List.countP_cons, List.countP_nil, decide_eq_true_eq]
  generalize (cfg.curveRom.x c 1).toNat = a1 at *
  generalize (cfg.curveRom.x c 2).toNat = a2 at *
  generalize (cfg.curveRom.x c 3).toNat = a3 at *
  generalize (cfg.curveRom.x c 4).toNat = a4 at *
  generalize (cfg.curveRom.x c 5).toNat = a5 at *
  generalize (cfg.curveRom.x c 6).toNat = a6 at *
  rcases (by omega : xs.toNat ≤ a1 ∨ (a1 < xs.toNat ∧ xs.toNat ≤ a2) ∨ (a2 < xs.toNat ∧ xs.toNat ≤ a3) ∨
      (a3 < xs.toNat ∧ xs.toNat ≤ a4) ∨ (a4 < xs.toNat ∧ xs.toNat ≤ a5) ∨ (a5 < xs.toNat ∧ xs.toNat ≤ a6) ∨
      a6 < xs.toNat) with h | ⟨h, h'⟩ | ⟨h, h'⟩ | ⟨h, h'⟩ | ⟨h, h'⟩ | ⟨h, h'⟩ | h
  · left
    refine ⟨h, ?_⟩
    rw [if_neg (by omega), if_neg (by omega), if_neg (by omega), if_neg (by omega), if_neg (by omega), if_neg (by omega)]
    rfl
  · right; left
    refine ⟨h, h', ?_⟩
    rw [if_neg (by omega), if_neg (by omega), if_neg (by omega), if_neg (by omega), if_neg (by omega), if_pos (by omega)]
    rfl
  · right; right; left
    refine ⟨h, h', ?_⟩
    rw [if_neg (by omega), if_neg (by omega), if_neg (by omega), if_neg (by omega), if_pos (by omega), if_pos (by omega)]
    rfl
  · right; right; right; left
    refine ⟨h, h', ?_⟩
    rw [if_neg (by omega), if_neg (by omega), if_neg (by omega), if_pos (by omega), if_pos (by omega), if_pos (by omega)]
    rfl
  · right; right; right; right; left
    refine ⟨h, h', ?_⟩
    rw [if_neg (by omega), if_neg (by omega), if_pos (by omega), if_pos (by omega), if_pos (by omega), if_pos (by omega)]
    rfl
  · right; right; right; right; right; left
    refine ⟨h, h', ?_⟩
    rw [if_neg (by omega), if_pos (by omega), if_pos (by omega), if_pos (by omega), if_pos (by omega), if_pos (by omega)]
    rfl
  · right; right; right; right; right; right
    refine ⟨h, ?_⟩
    rw [if_pos (by omega), if_pos (by omega), if_pos (by omega), if_pos (by omega), if_pos (by omega), if_pos (by omega)]
    rfl

theorem segmentIndex_le : (segmentIndex cfg.curveRom c xs).toNat ≤ 6 := by
  rcases segmentIndex_cases cfg c xs with ⟨-, h⟩ | ⟨-, -, h⟩ | ⟨-, -, h⟩ | ⟨-, -, h⟩ | ⟨-, -, h⟩ | ⟨-, -, h⟩ | ⟨-, h⟩ <;>
    rw [h] <;> decide

/-- R104: `dx` is at least 1, so `F_ROM_DX0` is unreachable. -/
theorem evalSegment_dx_ne_zero (v : U10) : (evalSegment cfg.curveRom c v).dx ≠ 0#32 := by
  have hlt := x_lt_next cfg c _ (segmentIndex_le cfg c (scaleSample v))
  intro h
  simp only [evalSegment] at h
  have h' := congrArg BitVec.toNat h
  simp only [BitVec.truncate_eq_setWidth, BitVec.toNat_sub, BitVec.toNat_setWidth, BitVec.toNat_ofNat] at h'
  have := x_le cfg c (segmentIndex cfg.curveRom c (scaleSample v))
  have := x_le cfg c (segmentIndex cfg.curveRom c (scaleSample v) + 1)
  omega

theorem interp_ok (v : U10) :
    interp cfg.curveRom c v = .ok ((evalSegment cfg.curveRom c v).r.sshiftRight 5) := by
  simp only [interp]
  rw [if_neg (evalSegment_dx_ne_zero cfg c v)]

theorem bankLane_done (k : Channel) (v : U10) (s : State) :
    bankLane k v s = .done { s with target := s.target.set k (some (laneTarget s.cfg k v)) } := by
  rw [bankLane, interp_ok]; rfl

/-- R113: with a sample the bank finishes, having written the four targets and nothing else. -/
theorem bankEval_done {s : State} {v : U10} (h : s.sample = some v) :
    bankEval s = .done { s with
      target := #v[some (laneTarget s.cfg 0 v), some (laneTarget s.cfg 1 v), some (laneTarget s.cfg 2 v),
        some (laneTarget s.cfg 3 v)] } := by
  rw [bankEval, h, readValue_some, Res.withValue_ok, bankLane_done, Res.andThen_done, bankLane_done, Res.andThen_done,
    bankLane_done, Res.andThen_done, bankLane_done]
  simp only [Res.done.injEq, State.mk.injEq, true_and, and_true]
  refine ⟨h, ?_⟩
  apply Vector.ext
  intro i hi
  rcases (by omega : i = 0 ∨ i = 1 ∨ i = 2 ∨ i = 3) with h | h | h | h <;> subst h <;> simp

theorem bankEval_unwritten {s : State} (h : s.sample = none) : bankEval s = .raised (.unwritten .sample) s := by
  rw [bankEval, h]; rfl

end Sys2Proof.Machine
end

