-- ==== Sys2Proof/Laws/PerInstr.lean ====
section
/-! SUPPORT. One family of facts about every instruction as syntax, one lemma per constructor: an instruction has a code word exactly
where the opcode table gives it a format other than "sub-operation", and its code word is of that format. -/

namespace Sys2Proof

/-- The format a code word is in. -/
def CodeWord.format : CodeWord → Format
  | .phase _ => .phase
  | .valueFrame _ => .frame16
  | .wpFrame _ => .frame16

namespace Laws.CodeFormat

def Statement (i : Instr) : Prop :=
  match encode i with
  | none => i.format = .subOperation
  | some w => i.format = w.format

theorem disableWp (k : Channel) : Statement (.disableWp k) := rfl
theorem requestSample : Statement .requestSample := rfl
theorem takeSample : Statement .takeSample := rfl
theorem bankEval : Statement .bankEval := rfl
theorem maybeWrite0 : Statement .maybeWrite0 := rfl
theorem maybeWrite1 : Statement .maybeWrite1 := rfl
theorem maybeWrite2 : Statement .maybeWrite2 := rfl
theorem maybeWrite3 : Statement .maybeWrite3 := rfl
theorem armTimer : Statement .armTimer := rfl
theorem takeTimer : Statement .takeTimer := rfl
theorem reservedD : Statement .reservedD := rfl
theorem reservedEF (low : BitVec 1) : Statement (.reservedEF low) := rfl
theorem interp (c : CurveNo) (s : U10) : Statement (.interp c s) := rfl
theorem clamp10 (v : S32) : Statement (.clamp10 v) := rfl
theorem clampSample (d : S16) : Statement (.clampSample d) := rfl
theorem sendByte (b : Byte) : Statement (.sendByte b) := rfl
theorem sendFilterValue (v : U10) : Statement (.sendFilterValue v) := rfl
theorem sendWp : Statement .sendWp := rfl
theorem select (k : Channel) : Statement (.select k) := rfl
theorem deselect : Statement .deselect := rfl
theorem valueFrame (tag : BitVec 2) (payload : U10) : Statement (.valueFrame tag payload) := rfl
theorem wpFrame (byte0 byte1 : Byte) : Statement (.wpFrame byte0 byte1) := rfl

end Laws.CodeFormat

end Sys2Proof
end

