-- ==== Sys2Proof/Laws/Trace.lean ====
section
/-! SUPPORT. How traces compose: line levels and the frame discipline over appended events, over a byte and over a frame. -/

namespace Sys2Proof.Machine

theorem linesAfter_append (t es : List PinEvent) : linesAfter (t ++ es) = es.foldl Lines.drive (linesAfter t) := by
  simp [linesAfter]

theorem lines_cellEvents (l : Lines) (b : Bool) :
    (cellEvents b).foldl Lines.drive l = { l with clk := false, dat := b } := rfl

theorem lines_byteEvents (l : Lines) (b : Byte) :
    (byteEvents b).foldl Lines.drive l = { l with clk := false, dat := b.getLsbD 0 } := by
  simp only [byteEvents, byteBits, List.flatMap_cons, List.flatMap_nil, List.foldl_append, lines_cellEvents, List.foldl_nil]

theorem lines_wordEvents (l : Lines) (w : FrameWord) :
    (wordEvents w).foldl Lines.drive l = { l with clk := false, dat := (frameLow w).getLsbD 0 } := by
  simp only [wordEvents, List.foldl_append, lines_byteEvents]

theorem lines_frameEvents (l : Lines) (k : Channel) (w : FrameWord) :
    (frameEvents k w).foldl Lines.drive l = { cs := csMask none, clk := false, dat := (frameLow w).getLsbD 0 } := by
  simp only [frameEvents, List.foldl_append, List.foldl_cons, lines_wordEvents, Lines.drive, List.foldl_nil]

theorem framePosAfter_append (p : FramePos) (as bs : List PinEvent) :
    framePosAfter p (as ++ bs) = (framePosAfter p as).bind fun q => framePosAfter q bs := by
  induction as generalizing p with
  | nil => rfl
  | cons e as ih =>
    simp only [List.cons_append, framePosAfter]
    cases p.next e with
    | none => rfl
    | some q => exact ih q

theorem framePosAfter_cell (k : Channel) (n : Nat) (h : n < 16) (l : Bool) (rest : List PinEvent) :
    framePosAfter (.cell k n) (cellEvents l ++ rest) = framePosAfter (.cell k (n + 1)) rest := by
  simp [cellEvents, framePosAfter, FramePos.next, h]

theorem framePosAfter_byte (k : Channel) (n : Nat) (h : n + 8 ≤ 16) (b : Byte) (rest : List PinEvent) :
    framePosAfter (.cell k n) (byteEvents b ++ rest) = framePosAfter (.cell k (n + 8)) rest := by
  simp only [byteEvents, byteBits, List.flatMap_cons, List.flatMap_nil, List.append_assoc, List.nil_append]
  rw [framePosAfter_cell k n (by omega), framePosAfter_cell k _ (by omega), framePosAfter_cell k _ (by omega),
    framePosAfter_cell k _ (by omega), framePosAfter_cell k _ (by omega), framePosAfter_cell k _ (by omega),
    framePosAfter_cell k _ (by omega), framePosAfter_cell k _ (by omega)]

theorem selectedBy_csMask (k : Channel) : selectedBy (csMask (some k)) = some k := by
  revert k; decide

theorem csMask_some_ne_none (k : Channel) : csMask (some k) ≠ csMask none := by
  revert k; decide

/-- A whole frame leads from idle to idle. -/
theorem framePosAfter_frame (k : Channel) (w : FrameWord) (rest : List PinEvent) :
    framePosAfter .idle (frameEvents k w ++ rest) = framePosAfter .idle rest := by
  simp only [frameEvents, wordEvents, List.cons_append, List.append_assoc, framePosAfter, FramePos.next,
    csMask_some_ne_none, selectedBy_csMask, if_false, Option.map_some]
  rw [framePosAfter_byte k 0 (by omega), framePosAfter_byte k 8 (by omega)]
  simp [framePosAfter, FramePos.next]

theorem wellFramed_iff (t : List PinEvent) : wellFramed t = true ↔ framePosAfter .idle t = some .idle := by
  simp [wellFramed]

/-- Appending events that lead from idle to idle keeps the discipline. -/
theorem wellFramed_append {t es : List PinEvent} (ht : wellFramed t = true)
    (hes : framePosAfter .idle es = some .idle) : wellFramed (t ++ es) = true := by
  rw [wellFramed_iff] at *
  rw [framePosAfter_append, ht]
  exact hes

end Sys2Proof.Machine
end

