-- ==== Sys2Proof/Laws/Step.lean ====
section
/-! SUPPORT. What a step can do, once: the inversion lemmas of `exec` and `step`. -/

namespace Sys2Proof.Machine

/-- Every meaning answers a next state: a fault of R251 is recorded in it (R250). -/
theorem exec_answers_next (i : Instr) (s : State) : ∃ t, exec i s = .next t := by
  have h : ∀ r : Res, ∃ t, r.outcome = .next t := fun r => by
    cases r <;> exact ⟨_, rfl⟩
  cases i with
  | disableWp k => exact h _
  | requestSample => exact ⟨_, rfl⟩
  | takeSample => exact ⟨_, rfl⟩
  | bankEval => exact h _
  | maybeWrite0 => exact h _
  | maybeWrite1 => exact h _
  | maybeWrite2 => exact h _
  | maybeWrite3 => exact h _
  | armTimer => exact ⟨_, rfl⟩
  | takeTimer => exact ⟨_, rfl⟩
  | reservedD => exact ⟨_, rfl⟩
  | reservedEF low => exact ⟨_, rfl⟩
  | interp c v => exact h _
  | clamp10 v => exact ⟨_, rfl⟩
  | clampSample d => exact ⟨_, rfl⟩
  | sendByte b => exact h _
  | sendFilterValue v => exact h _
  | sendWp => exact h _
  | select k => exact h _
  | deselect => exact ⟨_, rfl⟩
  | valueFrame tag payload => exact h _
  | wpFrame byte0 byte1 => exact h _

/-- R201: the controller's turn, where a step is enabled. -/
theorem controllerStep_enabled {s u : State} (h : s.enabled = true) (hu : exec (fetch s) s = .next u) :
    controllerStep s = .next (if u.fault = none then { u with phase := nextPhase s.phase } else u) := by
  rw [controllerStep, if_pos h, hu, advance]

theorem controllerStep_suspended {s : State} (h : s.enabled = false) : controllerStep s = .next s := by
  simp [controllerStep, h]

/-- On the controller's turn a step is the controller's step. -/
theorem step_controllerTurn {s s0 : State} (h : ControllerTurn s s0) : step s = controllerStep s0 := by
  rcases h with ⟨ht, rfl⟩ | ⟨rest, ht, rfl⟩ | ⟨e, rest, ht, hq, rfl⟩
  · unfold step; rw [ht]
  · unfold step; rw [ht]
  · unfold step; rw [ht]
    simp only [State.quiescent]
    rcases hq with hq | hq
    · simp [hq]
    · simp [hq]

/-- On the environment's turn a step is the event. -/
theorem step_environmentTurn {s s0 : State} {e : EnvEvent} (h : EnvironmentTurn s e s0) :
    step s = .next (deliver e s0) := by
  rcases h with ⟨rest, ht, rfl⟩ | ⟨rest, ht, hq, hf, rfl⟩
  · unfold step; rw [ht]
  · unfold step; rw [ht]
    simp [State.quiescent, hq, hf]

/-- One of the two agents has the turn. -/
theorem turn_cases (s : State) : (∃ s0, ControllerTurn s s0) ∨ ∃ e s0, EnvironmentTurn s e s0 := by
  cases ht : s.turns with
  | nil => exact .inl ⟨s, .inl ⟨ht, rfl⟩⟩
  | cons turn rest =>
    cases turn with
    | controller => exact .inl ⟨_, .inr (.inl ⟨rest, ht, rfl⟩)⟩
    | now e => exact .inr ⟨e, _, .inl ⟨rest, ht, rfl⟩⟩
    | atRest e =>
      cases hq : s.enabled with
      | true => exact .inl ⟨s, .inr (.inr ⟨e, rest, ht, .inl hq, rfl⟩)⟩
      | false =>
        cases hf : s.fault with
        | none => exact .inr ⟨e, _, .inr ⟨rest, ht, hq, hf, rfl⟩⟩
        | some f => exact .inl ⟨s, .inr (.inr ⟨e, rest, ht, .inr (by simp [hf]), rfl⟩)⟩

/-- What a step can do: suspend, run the selected operation and move the phase on, run it into a fault, or deliver an event. -/
theorem step_cases {s t : State} (h : step s = .next t) :
    (∃ s0, ControllerTurn s s0 ∧ s0.enabled = false ∧ t = s0) ∨
    (∃ s0 u, ControllerTurn s s0 ∧ s0.enabled = true ∧ exec (fetch s0) s0 = .next u ∧ u.fault = none ∧
      t = { u with phase := nextPhase s0.phase }) ∨
    (∃ s0, ControllerTurn s s0 ∧ s0.enabled = true ∧ exec (fetch s0) s0 = .next t ∧ t.fault ≠ none) ∨
    (∃ e s0, EnvironmentTurn s e s0 ∧ t = deliver e s0) := by
  rcases turn_cases s with ⟨s0, hs⟩ | ⟨e, s0, hs⟩
  · rw [step_controllerTurn hs] at h
    cases he : s0.enabled with
    | false =>
      rw [controllerStep_suspended he] at h
      exact .inl ⟨s0, hs, he, by injection h with h; exact h.symm⟩
    | true =>
      obtain ⟨u, hu⟩ := exec_answers_next (fetch s0) s0
      rw [controllerStep_enabled he hu] at h
      injection h with h
      by_cases hf : u.fault = none
      · rw [if_pos hf] at h
        exact .inr (.inl ⟨s0, u, hs, he, hu, hf, h.symm⟩)
      · rw [if_neg hf] at h
        subst h
        exact .inr (.inr (.inl ⟨s0, hs, he, hu, hf⟩))
  · rw [step_environmentTurn hs] at h
    injection h with h
    exact .inr (.inr (.inr ⟨e, s0, hs, h.symm⟩))

/-- Taking a turn off the list changes nothing else. -/
theorem ControllerTurn.fields {s s0 : State} (h : ControllerTurn s s0) : ∃ rest, s0 = { s with turns := rest } := by
  rcases h with ⟨-, rfl⟩ | ⟨rest, -, rfl⟩ | ⟨e, rest, -, -, rfl⟩
  · exact ⟨_, rfl⟩
  · exact ⟨rest, rfl⟩
  · exact ⟨_, rfl⟩

theorem EnvironmentTurn.fields {s s0 : State} {e : EnvEvent} (h : EnvironmentTurn s e s0) :
    ∃ rest, s0 = { s with turns := rest } := by
  rcases h with ⟨rest, -, rfl⟩ | ⟨rest, -, -, -, rfl⟩
  · exact ⟨rest, rfl⟩
  · exact ⟨rest, rfl⟩

end Sys2Proof.Machine
end

