-- ==== Sys2Proof/Tests/Slice0.lean ====
section
/-! SUPPORT. Tests and witnesses. The expected results are those of spec/95_test_vectors.md (the section stands at each group) or
are written out from the spec's encodings; none comes from the model. A `witness_` theorem shows a state and operands that
meet the hypotheses of the statement it is named after, clause by clause. -/

namespace Sys2Proof.Tests

open Sys2Proof.Machine

/-! ### The test configuration (95_test_vectors.md section 1) -/

def curveA : Vector RomWord 16 :=
  #v[0x0000, 0x1000, 0x2000, 0x3000, 0x4000, 0x5000, 0x6000, 0x7FE0,
     0x7FE0, 0x7FE0, 0x61A8, 0x4650, 0x2EE0, 0x1770, 0x07D0, 0x0050]

def curveB : Vector RomWord 16 :=
  #v[0x0000, 0x1666, 0x2328, 0x36B0, 0x4A38, 0x5DC0, 0x6D60, 0x7FE0,
     0x0000, 0x03E8, 0x0BB8, 0x1F40, 0x3A98, 0x55F0, 0x6D60, 0x7FE0]

def curveC : Vector RomWord 16 :=
  #v[0x0000, 0x1244, 0x2488, 0x36CC, 0x4910, 0x5B54, 0x6D98, 0x7FE0,
     0x4000, 0x4000, 0x4000, 0x4000, 0x4000, 0x4000, 0x4000, 0x4000]

def curveD : Vector RomWord 16 :=
  #v[0x0000, 0x1244, 0x2488, 0x36CC, 0x4910, 0x5B54, 0x6D98, 0x7FE0,
     0x0000, 0x1244, 0x2488, 0x36CC, 0x4910, 0x5B54, 0x6D98, 0x7FE0]

def curveT : Vector RomWord 16 :=
  #v[0, 70, 200, 320, 1000, 20000, 30000, 32736, 86, 36, 1000, 5000, 5000, 100, 0, 32767]

def curveE : Vector RomWord 16 :=
  #v[0, 2048, 4096, 6144, 8192, 10240, 12288, 16384, 8000, 8000, 6000, 5000, 4000, 3000, 2000, 1000]

def params : Params where
  curveRom    := .ofCurves curveA curveB curveC curveD
  xMax        := 32736
  curveOf     := #v[0, 1, 2, 3]
  invert      := true
  alwaysWrite := false
  cacheReset  := .sentinel
  cmdTag      := 0b01
  wpByte0     := 0x18
  wpByte1     := 0x02
  tDuty       := 0
  syncStages  := 2

def cfg : Config := { toParams := params }

/-- Curve T in the place of every curve. -/
def cfgT : Config := { toParams := { params with curveRom := .ofCurves curveT curveT curveT curveT } }

/-- Curve E and the `X_MAX` that goes with it. -/
def cfgE : Config := { toParams := { params with curveRom := .ofCurves curveE curveE curveE curveE, xMax := 16384 } }

/-- Reset. -/
def boot : State := State.resetOf cfg

/-- After the boot, with a sample taken and the targets of section 3.3's row 512. -/
def evaluated (phase : PhaseCode) : State :=
  { boot with
    phase := phase
    wpDone := #v[true, true, true, true]
    sample := some 512
    target := #v[some 375, some 354, some 512, some 512] }

/-- `evaluated`, with every cache holding its target. -/
def cached (phase : PhaseCode) : State :=
  { evaluated phase with
    cacheVld := #v[true, true, true, true]
    cacheVal := #v[some 375, some 354, some 512, some 512] }

def waitAdc (pend : Bool) : State :=
  { evaluated 0x5 with adc := { ie := true, pend := pend } }

def waitTmr (pend : Bool) : State :=
  { evaluated 0xC with tmr := { ie := true, pend := pend } }

def selected (k : Channel) : State := { boot with sel := some k }

/-- The state a step or an operation goes on to, or the state it started in. -/
def after (s : State) : Host.Outcome State Fault Refusal → State
  | .next t => t
  | .fault _ => s
  | .refused _ => s

def run (i : Instr) (s : State) : State := after s (exec i s)

/-! ### WellFormed: an ill-formed term for each check (R64, R8, R81, R83) -/

theorem test_parameters_accepted : params.romWellFormed = true ∧ params.syncWellFormed = true := by decide

/-- R64 (a). -/
theorem test_first_x_not_zero_refused :
    { params with curveRom := .ofCurves curveA curveB curveC (curveD.set 0 1) }.romWellFormed = false := by decide

/-- R64 (b). -/
theorem test_equal_x_refused :
    { params with curveRom := .ofCurves curveA (curveB.set 4 0x36B0) curveC curveD }.romWellFormed = false := by decide

/-- R64 (c). -/
theorem test_last_x_not_xmax_refused : { params with xMax := 32767 }.romWellFormed = false := by decide

/-- R64 (d), R90: bit 15 of a word is 1. -/
theorem test_word_with_bit15_refused :
    { params with curveRom := .ofCurves (curveA.set 15 0x8050) curveB curveC curveD }.romWellFormed = false := by decide

/-- R8: `SYNC_STAGES` = 0. -/
theorem test_no_synchronizer_stage_refused : { params with syncStages := 0 }.syncWellFormed = false := by decide

theorem test_frame_with_other_tag_refused : (Instr.valueFrame 0b10 0).wellFormed params = false := by decide

theorem test_frame_with_other_bytes_refused :
    (Instr.wpFrame 0x18 0x03).wellFormed params = false ∧ (Instr.wpFrame 0x10 0x02).wellFormed params = false := by decide

/-! ### Decode: words written out from the spec's encodings (R21, R87, R81, R83) -/

theorem test_decode_boot_phases :
    [0b0000#4, 0b0001#4, 0b0010#4, 0b0011#4].map decodePhase =
      [.disableWp 0, .disableWp 1, .disableWp 2, .disableWp 3] := by decide

theorem test_decode_cycle_phases :
    [0b0100#4, 0b0101#4, 0b0110#4, 0b0111#4, 0b1000#4, 0b1001#4, 0b1010#4, 0b1011#4, 0b1100#4].map decodePhase =
      [.requestSample, .takeSample, .bankEval, .maybeWrite0, .maybeWrite1, .maybeWrite2, .maybeWrite3, .armTimer,
        .takeTimer] := by decide

theorem test_decode_reserved_phases :
    [0b1101#4, 0b1110#4, 0b1111#4].map decodePhase = [.reservedD, .reservedEF 0, .reservedEF 1] := by decide

/-- R81: pad 0000, tag 01, payload 1010001000 (648). -/
theorem test_decode_value_frame : decode (.valueFrame 0b0000011010001000) = .ok (.valueFrame 0b01 648) := by decide

theorem test_decode_value_frame_pad : decode (.valueFrame 0b0001011010001000) = .error (.padNotZero 0b0001) := by decide

/-- R83: 0x18, then 0x02. -/
theorem test_decode_wp_frame : decode (.wpFrame 0b0001100000000010) = .ok (.wpFrame 0x18 0x02) := by decide

theorem test_decode_table_words :
    decodeTableWord 8 0x6 = some .bankEval ∧ decodeTableWord 16 0x0688 = some (.valueFrame 0b01 648) ∧
    decodeTableWord 16 0x1802 = some (.wpFrame 0x18 0x02) ∧ decodeTableWord 8 0x10 = none := by decide

/-- R61: curve 3, axis y, point 5. -/
theorem test_rom_address : romAddress 3 .y 5 = 0b111101#6 := by decide

/-! ### Operations (95_test_vectors.md section 3) -/

/-- 3.1, W2: A at 1023. -/
theorem test_interp_endpoint : (run (.interp 0 1023) boot).ret = some (.s32 2) := by decide

/-- 3.1: T at 1, where truncation and floor differ. -/
theorem test_interp_truncates : (run (.interp 0 1) (State.resetOf cfgT)).ret = some (.s32 2) := by decide

/-- 3.1: E at 1023, extrapolation below 0. -/
theorem test_interp_extrapolates : (run (.interp 0 1023) (State.resetOf cfgE)).ret = some (.s32 (-94)) := by decide

/-- 3.1, V-INTERP-DX0: X(c,3) = X(c,4). Three x words lie below `xs` = 320, so i = 3. -/
theorem test_interp_dx0 :
    interp (.ofCurves #v[0, 30000, 30000, 100, 100, 100, 30000, 32736, 0, 0, 0, 0, 0, 0, 0, 0] curveB curveC curveD) 0 10 =
      .error (.romDx0 0 3) := by decide

/-- 3.2. -/
theorem test_clamp10 :
    [-94, -1, 0, 512, 1023, 1024, 1998].map clamp10 = [0, 0, 0, 512, 1023, 1023, 1023] := by decide

/-- 3.2. -/
theorem test_clamp_sample :
    [0x0000, 0x0001, 0x0200, 0x03FF, 0x0400, 0x7FFF, 0x8000, 0xFFFF].map clampSample =
      [0, 1, 512, 1023, 1023, 1023, 0, 0] := by decide

/-- 3.3, row 512. -/
theorem test_bank_eval :
    (run .bankEval { boot with sample := some 512 }).target = #v[some 375, some 354, some 512, some 512] := by decide

/-- R40: `BANK_EVAL` before a sample is taken. -/
theorem test_bank_eval_unwritten : (run .bankEval boot).fault = some (.unwritten .sample) := by decide

/-- 3.4: 0xA5. -/
theorem test_send_byte :
    (run (.sendByte 0xA5) (selected 2)).trace.filterMap (fun | .dat l => some l | _ => none) =
      [true, false, true, false, false, true, false, true] := by decide

/-- 3.4: unselected. -/
theorem test_send_byte_unselected :
    (run (.sendByte 0x5A) boot).fault = some (.sendUnselected (.byte 0x5A)) ∧ (run (.sendByte 0x5A) boot).trace = [] := by
  decide

/-- 3.5: v = 375 goes out as 0x06, 0x88. -/
theorem test_send_filter_value :
    (run (.sendFilterValue 375) (selected 0)).trace = byteEvents 0x06 ++ byteEvents 0x88 := by decide

/-- 3.6. -/
theorem test_select : (run (.select 2) boot).trace = [.cs 0b1011] ∧ (run (.select 2) boot).sel = some 2 := by decide

/-- 3.6. -/
theorem test_select_overlap : (run (.select 1) (selected 2)).fault = some (.csOverlap 2 1) := by decide

/-- 3.6. -/
theorem test_deselect : (run .deselect (selected 3)).trace = [.cs 0b1111] ∧ (run .deselect boot).trace = [.cs 0b1111] := by
  decide

/-- 3.6. -/
theorem test_send_wp : (run .sendWp (selected 0)).trace = byteEvents 0x18 ++ byteEvents 0x02 := by decide

/-- R84. -/
theorem test_frame_rows :
    (run (.valueFrame 0b01 648) (selected 1)).trace = byteEvents 0x06 ++ byteEvents 0x88 ∧
    (run (.wpFrame 0x18 0x02) (selected 1)).trace = byteEvents 0x18 ++ byteEvents 0x02 := by decide

/-- 3.7: `DISABLE_WP(1)`. -/
theorem test_disable_wp :
    (run (.disableWp 1) boot).trace = frameEvents 1 0x1802 ∧
    (run (.disableWp 1) boot).wpDone = #v[false, true, false, false] := by decide

/-- 3.7, row 1. -/
theorem test_maybe_write :
    (run .maybeWrite0 (evaluated 0x7)).trace = frameEvents 0 0x0688 ∧
    (run .maybeWrite0 (evaluated 0x7)).cacheVal[0] = some 375 := by decide

/-- 3.7, row 2: unchanged. -/
theorem test_maybe_write_unchanged : run .maybeWrite0 (cached 0x7) = cached 0x7 := by decide

/-- 3.7, row 4: channel 3, 1 after 0. -/
theorem test_maybe_write_channel3 :
    (run .maybeWrite3 { cached 0xA with
      target := #v[some 375, some 354, some 512, some 1], cacheVal := #v[some 375, some 354, some 512, some 0] }).trace =
      frameEvents 3 0x07FE := by decide

/-- 3.7, row 7. -/
theorem test_maybe_write_before_wp :
    (run .maybeWrite2 { evaluated 0x9 with wpDone := #v[true, true, false, true] }).fault = some (.writeBeforeWp 2) := by
  decide

/-- 3.8: `SLEEP`. -/
theorem test_request_sample :
    (run .requestSample (evaluated 0x4)).adc = { ie := true, pend := false } ∧
    (run .requestSample (evaluated 0x4)).trace = [.adcStart] := by decide

/-- 3.8: `WAIT_ADC`, word 0x0200. -/
theorem test_take_sample :
    (run .takeSample { waitAdc true with adcData := 0x0200, sample := none }).sample = some 512 ∧
    (run .takeSample (waitAdc true)).adc = { ie := false, pend := false } := by decide

/-- 3.8: `ARM`. -/
theorem test_arm_timer :
    (run .armTimer (evaluated 0xB)).tmr = { ie := true, pend := false } ∧
    (run .armTimer (evaluated 0xB)).trace = [.tmrArm] := by decide

/-- 3.8: `WAIT_TMR`. -/
theorem test_take_timer :
    (run .takeTimer (waitTmr true)).phase = 0x4 ∧ (run .takeTimer (waitTmr true)).tmr = { ie := false, pend := false } := by
  decide

/-- 3.8: phase 0xE. -/
theorem test_reserved_phase :
    after boot (step { boot with phase := 0xE }) = { boot with phase := 0xE, fault := some (.badPhase 0xE) } := by decide

/-- 3.8: a wait phase without its event. -/
theorem test_wait_suspends : after boot (step (waitAdc false)) = waitAdc false := by decide

/-- 3.8: `EVAL` goes on to `WRITE0`. -/
theorem test_eval_advances : (after boot (step (evaluated 0x6))).phase = 0x7 := by decide

/-- 3.9. -/
theorem test_adc_done_latched :
    deliver (.adcDone 0x0123) (waitAdc false) = { waitAdc true with adcData := 0x0123 } ∧
    deliver (.adcDone 0x03E8) (waitTmr false) = { waitTmr false with adcData := 0x03E8 } := by decide

/-- 3.9. -/
theorem test_tmr_expired_latched :
    deliver .tmrExpired (waitTmr false) = waitTmr true ∧ deliver .tmrExpired (waitAdc false) = waitAdc false := by decide

/-- 3.9. -/
theorem test_reset_event :
    deliver .reset { cached 0xE with adcData := 7, fault := some (.badPhase 0xE) } =
      { boot with adcData := 7, trace := [.cs 0b1111, .clk false, .dat false] } := by decide

/-- R241 with two stages: the edge is seen after two clocks. -/
theorem test_synchronizer_delay :
    ([0, 1, 2, 3].map fun n => (Synchronizer.held true n (Synchronizer.reset 2)).rising) = [false, false, true, false] := by
  decide

/-- R241: `adc_done` high for four clocks is one `ADC_DONE`, with the word of the clock that sees the edge. -/
theorem test_held_port_gives_one_event :
    ([1, 2, 3, 4].foldl (fun s d => s.clockPorts { adcDone := true, adcData := d, tmrExpired := false }) boot).turns =
      [.now (.adcDone 2)] := by decide

/-- 3.3, row 0: `EVAL` placed right after reset evaluates the converter's word as it stands, 0. -/
theorem test_placed_eval :
    (after boot (step (boot.withFetchWord 8 0x6))).target = #v[some 1023, some 0, some 512, some 0] ∧
    (after boot (step (boot.withFetchWord 8 0x6))).fault = none := by decide

/-- 3.5, v = 1023: `WRITE0` placed right after reset sends 0x0400 to channel 0. -/
theorem test_placed_write :
    (after boot (step (boot.withFetchWord 8 0x7))).trace = frameEvents 0 0x0400 ∧
    (after boot (step (boot.withFetchWord 8 0x7))).cacheVal[0] = some 1023 := by decide

/-! ### Witnesses: the hypotheses of the statements are met -/

/-- The invariant holds at reset, in both waits and at the first and last write phase. -/
theorem witness_Inv :
    Inv boot ∧ Inv (waitAdc false) ∧ Inv (waitAdc true) ∧ Inv (waitTmr true) ∧ Inv (evaluated 0x7) ∧ Inv (cached 0xA) := by
  refine ⟨?_, ?_, ?_, ?_, ?_, ?_⟩ <;> constructor <;> decide

/-- `ControllerTurn` by the end of the schedule, by a turn of its own and before an event that waits for quiescence. -/
theorem witness_ControllerTurn :
    ControllerTurn boot boot ∧ ControllerTurn { boot with turns := [.controller] } boot ∧
    ControllerTurn { boot with turns := [.atRest .tmrExpired] } { boot with turns := [.atRest .tmrExpired] } :=
  ⟨.inl ⟨rfl, rfl⟩, .inr (.inl ⟨[], rfl, rfl⟩), .inr (.inr ⟨.tmrExpired, [], rfl, .inl (by decide), rfl⟩)⟩

/-- `EnvironmentTurn` wherever the controller stands, and at a quiescent state. -/
theorem witness_EnvironmentTurn :
    EnvironmentTurn { boot with turns := [.now .reset] } .reset boot ∧
    EnvironmentTurn { waitAdc false with turns := [.atRest (.adcDone 512)] } (.adcDone 512) (waitAdc false) :=
  ⟨.inl ⟨[], rfl, rfl⟩, .inr ⟨[], rfl, by decide, rfl, rfl⟩⟩

theorem witness_PhaseCodeSelectsOperation :
    boot.fault = none ∧ 0xD ≤ (0xD#4).toNat ∧ decode (.phase 0xD) = .ok .reservedD ∧ 0xD ≤ (0xF#4).toNat ∧
    decode (.phase 0xF) = .ok (.reservedEF 1) ∧ (Instr.interp 0 0).format = .subOperation := by decide

theorem witness_EncodedInstructionDecodesBack :
    encode (.disableWp 3) = some (.phase 0x3) ∧ encode (.reservedEF 1) = some (.phase 0xF) ∧
    encode (.valueFrame 0b11 1023) = some (.valueFrame 0x0FFF) ∧ encode (.wpFrame 0xFF 0x00) = some (.wpFrame 0xFF00) := by
  decide

theorem witness_DecodedWordEncodesBack :
    decode (.phase 0xC) = .ok .takeTimer ∧ decode (.valueFrame 0x0FFF) = .ok (.valueFrame 0b11 1023) ∧
    decode (.wpFrame 0xFFFF) = .ok (.wpFrame 0xFF 0xFF) := by decide

/-- A channel is selected: `ValueFrameCarriesTagAndPayload`, `WpFrameCarriesTheTwoConstants`, the send statements and the
overlap clauses; and none is: their other clauses. -/
theorem witness_selection : (selected 0).sel = some 0 ∧ (selected 3).sel = some 3 ∧ boot.sel = none := by decide

theorem witness_ValueFrameWithNonzeroPadIsRejected : (0x1802#16).extractLsb' 12 4 ≠ 0#4 := by decide

/-- A step that goes on, and one that raises. -/
theorem witness_StepRunsSelectedOperation :
    boot.enabled = true ∧ decode (.phase boot.phase) = .ok (.disableWp 0) ∧
    exec (.disableWp 0) boot = .next (run (.disableWp 0) boot) ∧ (run (.disableWp 0) boot).fault = none ∧
    { boot with phase := 0x6 }.enabled = true ∧ exec .bankEval boot = .next (run .bankEval boot) ∧
    (run .bankEval boot).fault ≠ none :=
  ⟨by decide, by decide, rfl, by decide, by decide, rfl, by decide⟩

/-- The controller is suspended in a wait and when a fault is recorded. -/
theorem witness_SuspendedControllerChangesNothing :
    (waitAdc false).enabled = false ∧ (waitTmr false).enabled = false ∧
    { boot with fault := some (.badPhase 0xD) }.enabled = false := by decide

/-- `PhaseMovesOnlyByTheSuccessorTable`: the last row of the table, a suspended controller, a reset and another event. -/
theorem witness_PhaseMovesOnlyByTheSuccessorTable :
    step (waitTmr true) = .next (run .takeTimer (waitTmr true)) ∧ (waitTmr true).enabled = true ∧
    (run .takeTimer (waitTmr true)).fault = none ∧ step (waitAdc false) = .next (waitAdc false) ∧
    step { boot with turns := [.now .reset] } = .next (deliver .reset boot) ∧
    step { boot with turns := [.now .tmrExpired] } = .next boot :=
  ⟨rfl, by decide, by decide, rfl, rfl, rfl⟩

/-- `UpdateStateIsAFunctionOfThePhase`: each clause at its bounds. -/
theorem witness_UpdateStateIsAFunctionOfThePhase :
    (evaluated 0x4).phase.toNat ≤ 4 ∧ (evaluated 0x5).phase = 0x5 ∧ 6 ≤ (evaluated 0x6).phase.toNat ∧
    (evaluated 0xC).phase.toNat ≤ 0xC ∧ 0xD ≤ (evaluated 0xD).phase.toNat := by decide

theorem witness_RaisingStepKeepsItsPhase :
    { boot with phase := 0xE }.enabled = true ∧
    step { boot with phase := 0xE } = .next { boot with phase := 0xE, fault := some (.badPhase 0xE) } :=
  ⟨by decide, rfl⟩

theorem witness_RecordedFaultStaysUntilReset :
    { boot with fault := some (.badPhase 0xD) }.fault = some (.badPhase 0xD) ∧
    exec .requestSample { boot with fault := some (.badPhase 0xD) } =
      .next (run .requestSample { boot with fault := some (.badPhase 0xD) }) := ⟨rfl, rfl⟩

/-- `InterpDatapathIsExact`, second clause. -/
theorem witness_InterpDatapathIsExact :
    exactDx (.ofCurves #v[0, 30000, 30000, 100, 100, 100, 30000, 32736, 0, 0, 0, 0, 0, 0, 0, 0] curveB curveC curveD) 0 10 =
      0 := by decide

/-- `ClampsLandInTheDeviceRange`: each clause at its bounds. -/
theorem witness_ClampsLandInTheDeviceRange :
    (-1 : S32).toInt < 0 ∧ 1023 < (1024 : S32).toInt ∧ 0 ≤ (0 : S32).toInt ∧ (1023 : S32).toInt ≤ 1023 ∧
    0x8000 ≤ (0x8000 : S16).toNat ∧ 0x400 ≤ (0x400 : S16).toNat ∧ (0x7FFF : S16).toNat ≤ 0x7FFF ∧
    (0x3FF : S16).toNat ≤ 0x3FF := by decide

theorem witness_BankEvalWritesTheFourTargets : (evaluated 0x6).sample = some 512 ∧ boot.sample = none := by decide

/-- `SendFilterValueSendsTwoBytes`: both settings of `INVERT`. -/
theorem witness_SendFilterValueSendsTwoBytes :
    cfg.invert = true ∧ (Config.mk { params with invert := false }).invert = false ∧ payloadOf cfg 375 = 648 := by decide

/-- `MaybeWriteFollowsTheGate`: write protect, a shut gate, an open gate from idle and from a selection. -/
theorem witness_MaybeWriteFollowsTheGate :
    (evaluated 0x7).target[0] = some 375 ∧ { evaluated 0x7 with wpDone := boot.wpDone }.wpDone[0] = false ∧
    (cached 0x7).wpDone[0] = true ∧ GateShut (cached 0x7) 0 375 ∧
    GateOpen (evaluated 0x7) 0 375 ∧ (evaluated 0x7).sel = none ∧
    GateOpen { evaluated 0x7 with sel := some 3 } 0 375 ∧
    GateOpen { cached 0x7 with cacheVal := #v[some 374, none, none, none] } 0 375 :=
  ⟨by decide, by decide, by decide, ⟨by decide, by decide, by decide⟩, .inr (.inl (by decide)), by decide,
    .inr (.inl (by decide)), .inr (.inr ⟨374, by decide, by decide⟩)⟩

theorem witness_UnwrittenReadRaises :
    boot.target[0] = none ∧ { cached 0x7 with cacheVal := boot.cacheVal }.target[0] = some 375 ∧
    (cached 0x7).wpDone[0] = true ∧ (cached 0x7).cfg.alwaysWrite = false ∧ (cached 0x7).cacheVld[0] = true ∧
    { cached 0x7 with cacheVal := boot.cacheVal }.cacheVal[0] = none := by decide

theorem witness_ReservedPhaseRaises :
    { boot with phase := 0xD }.fault = none ∧ 0xD ≤ { boot with phase := 0xD }.phase.toNat ∧
    0xD ≤ { boot with phase := 0xF }.phase.toNat := by decide

/-- The frames: an operation answers a next state, also when it raises. -/
theorem witness_OnlyNamedOperationsWriteEachElement :
    exec .takeSample (waitAdc true) = .next (run .takeSample (waitAdc true)) ∧
    exec (.sendByte 1) boot = .next (run (.sendByte 1) boot) := ⟨rfl, rfl⟩

/-- `StepKeepsTheInvariant`, `UpdateStateIsAStrictCycle`: a step from an invariant state, for each agent. -/
theorem witness_StepKeepsTheInvariant :
    Inv boot ∧ step boot = .next (after boot (step boot)) ∧ Inv (waitAdc true) ∧
    step (waitAdc true) = .next (after boot (step (waitAdc true))) ∧
    step { boot with turns := [.now .reset] } = .next (deliver .reset boot) :=
  ⟨witness_Inv.1, rfl, witness_Inv.2.2.1, rfl, rfl⟩

theorem witness_ControllerStepEmitsItsEvents :
    Inv (evaluated 0x7) ∧ ControllerTurn (evaluated 0x7) (evaluated 0x7) ∧ (evaluated 0x7).enabled = true ∧
    step (evaluated 0x7) = .next (after boot (step (evaluated 0x7))) :=
  ⟨witness_Inv.2.2.2.2.1, .inl ⟨rfl, rfl⟩, by decide, rfl⟩

set_option maxRecDepth 4000 in
/-- `ReceiverReadsTheFrameWord`: its two cases. -/
theorem witness_ReceiverReadsTheFrameWord :
    received 1 false (frameEvents 1 0x0688) =
      [[false, false, false, false, false, true, true, false, true, false, false, false, true, false, false, false]] ∧
    received 2 false (frameEvents 1 0x0688) = [] := by decide

/-- `SegmentHoldsTheScaledSample`: `xs` on the bounds X(1) = 4096 and X(6) = 24576 of curve A. -/
theorem witness_SegmentHoldsTheScaledSample :
    (cfg.curveRom.x 0 1).toNat = 32 * (128 : U10).toNat ∧ (cfg.curveRom.x 0 6).toNat = 32 * (768 : U10).toNat ∧
    segmentIndex cfg.curveRom 0 (scaleSample 128) = 0 ∧ segmentIndex cfg.curveRom 0 (scaleSample 768) = 5 := by decide

theorem witness_InterpolationStaysInRange : 32736 ≤ cfg.xMax.toNat := by decide

/-- A rising, a falling and a flat segment. -/
theorem witness_InterpolationIsMonotoneInASegment :
    exactIndex cfg.curveRom 1 181 = exactIndex cfg.curveRom 1 281 ∧ 0 ≤ exactDy cfg.curveRom 1 181 ∧
    exactIndex cfg.curveRom 0 1000 = exactIndex cfg.curveRom 0 1023 ∧ exactDy cfg.curveRom 0 1000 ≤ 0 ∧
    exactDy cfg.curveRom 2 512 = 0 := by decide

/-- The first, an interior and the last control point. -/
theorem witness_InterpolationMeetsItsControlPoints :
    exactXs 0 = exactX cfg.curveRom 0 0 ∧ exactXs 128 = exactX cfg.curveRom 0 1 ∧
    exactXs 1023 = exactX cfg.curveRom 0 7 := by decide

theorem witness_EventsAreLatchedOnlyWhileEnabled :
    (waitAdc false).adc.ie = true ∧ boot.adc.ie = false ∧ (waitTmr false).tmr.ie = true ∧ boot.tmr.ie = false := by decide

/-- Both settings of `CACHE_RESET`. -/
theorem witness_ResetValuesAreTheTable :
    cfg.cacheReset = .sentinel ∧ (Config.mk { params with cacheReset := .zero }).cacheReset = .zero := by decide

theorem witness_CompletionAfterRequestIsTaken :
    Inv { evaluated 0x4 with turns := [.now (.adcDone 7), .controller, .now (.adcDone 512), .controller] } ∧
    (evaluated 0x4).phase = 0x4 := by
  refine ⟨?_, by decide⟩
  constructor <;> decide

/-- A write and a repeated one. -/
theorem witness_RepeatedWriteIsIdempotent :
    Inv (evaluated 0x7) ∧ 7 ≤ (evaluated 0x7).phase.toNat ∧ (evaluated 0x7).cfg.alwaysWrite = false ∧
    exec (maybeWriteOf 0) (evaluated 0x7) = .next (run .maybeWrite0 (evaluated 0x7)) :=
  ⟨witness_Inv.2.2.2.2.1, by decide, by decide, rfl⟩

/-- Two states that differ in the other channels. -/
theorem witness_ChannelsWriteIndependently :
    (evaluated 0x7).target[0] = { evaluated 0x7 with target := #v[some 375, none, none, none] }.target[0] ∧
    exec (maybeWriteOf 0) (evaluated 0x7) = .next (run .maybeWrite0 (evaluated 0x7)) ∧
    exec (maybeWriteOf 0) { evaluated 0x7 with target := #v[some 375, none, none, none] } =
      .next (run .maybeWrite0 { evaluated 0x7 with target := #v[some 375, none, none, none] }) :=
  ⟨by decide, rfl, rfl⟩

/-- Reset with a 1 in the first flop of each chain that is named. -/
def armed (adc tmr : Bool) : State :=
  { boot with adcSync := { stages := [adc, false], edge := false }, tmrSync := { stages := [tmr, false], edge := false } }

/-- `ClockDeliversTheRisingEdges`: an edge of both inputs, of each alone, and of none, with an empty schedule. -/
theorem witness_ClockDeliversTheRisingEdges :
    ([(true, true), (true, false), (false, true), (false, false)].map fun (a, t) =>
      (((armed a t).adcSync.clock true).rising, ((armed a t).tmrSync.clock true).rising)) =
      [(true, true), (true, false), (false, true), (false, false)] ∧
    (armed true true).turns = [] ∧ Inv boot := ⟨by decide, rfl, witness_Inv.1⟩

theorem witness_PlacedOperationRuns : Inv boot ∧ Inv (cached 0xA) ∧ (0x0 : PhaseCode).toNat ≤ 0xC ∧ (0xC : PhaseCode).toNat ≤ 0xC :=
  ⟨witness_Inv.1, witness_Inv.2.2.2.2.2, by decide, by decide⟩

/-- `InadmissibleRomIsRefused`: its three outcomes. -/
theorem witness_InadmissibleRomIsRefused :
    RomConditions params ∧ 1 ≤ params.syncStages ∧ ¬ RomConditions { params with xMax := 32767 } ∧
    RomConditions { params with syncStages := 0 } := by
  unfold RomConditions
  decide

end Sys2Proof.Tests
end

section
/-! What power-on answers (spec/20_memory.md R64, spec/00_scope.md R8), once per outcome, and the two statements of the
scope family. -/

namespace Sys2Proof.Machine

variable {p : Params}

/-- R64: admissible parameters with a synchronizer stage are a `Config`, and power on in its reset state. -/
theorem configure_of_romConditions (rom : RomConditions p) (sync : 1 ≤ p.syncStages) :
    configure p = .next (State.resetOf
      { toParams := p, romAdmissible := (admissible_iff p).2 rom, hasSyncStage := sync }) := by
  rw [configure, dif_pos ((admissible_iff p).2 rom), dif_pos sync]

theorem configure_of_not_romConditions (rom : ¬ RomConditions p) : configure p = .refused .inadmissibleRom :=
  dif_neg (mt (admissible_iff p).1 rom)

theorem configure_of_no_syncStage (rom : RomConditions p) (sync : p.syncStages = 0) :
    configure p = .refused .noSynchronizerStage := by
  have noStage : ¬ 1 ≤ p.syncStages := by omega
  rw [configure, dif_pos ((admissible_iff p).2 rom), dif_neg noStage]

/-- Settles O58: the two checks of `configure` decide its three outcomes, and the first of them is R64's (a) to (d). -/
theorem inadmissibleRomIsRefused : Obligations.InadmissibleRomIsRefused := by
  intro p
  refine ⟨fun rom sync => ?_, configure_of_not_romConditions, configure_of_no_syncStage, config_romConditions⟩
  exact ⟨_, rfl, configure_of_romConditions rom sync⟩

/-- R8 `CURVE_OF`: by default each channel reads the curve of its own number. -/
theorem default_curveOf_toNat (k : Channel) : (Config.default.curveOf[k]).toNat = k.val := by
  revert k; decide

/-- Settles O59: reset holds `Config.default`, whose decided fields are R8's. -/
theorem resetConfigurationHasTheDefaults : Obligations.ResetConfigurationHasTheDefaults := by
  have held : State.reset.cfg = Config.default := rfl
  rw [Obligations.ResetConfigurationHasTheDefaults, held]
  exact ⟨rfl, rfl, rfl, rfl, rfl, default_curveOf_toNat⟩

end Sys2Proof.Machine
end

section
/-! What one operation can do to the state, once: `Effect` has a constructor per way an operation can end, and what an
operation writes and leaves alone is read off it, element by element. -/

namespace Sys2Proof.Machine

/-- The states an operation may answer from `s`: the fault recorded and nothing else changed (R250), whichever operation
raised it, or the operation's own finished state. -/
inductive Effect (s : State) : Instr → State → Prop
  | raised (i : Instr) (f : Fault) : Effect s i (s.faulted f)
  | wpDisabled (k : Channel) : Effect s (.disableWp k)
      { s.afterBytes (frameEvents k (wpWord s.cfg)) (s.cfg.wpByte1.getLsbD 0) with wpDone := s.wpDone.set k true }
  | sampleRequested : Effect s .requestSample { ({ s with adc := s.adc.arm }).pulseAdcStart with phase := phaseWaitAdc }
  | sampleTaken : Effect s .takeSample
      { s with adc := s.adc.take, sample := some (clampSample s.adcData), phase := 0x6 }
  | bankEvaluated (v : U10) (held : s.sample = some v) : Effect s .bankEval
      { s with target := #v[some (laneTarget s.cfg 0 v), some (laneTarget s.cfg 1 v), some (laneTarget s.cfg 2 v),
        some (laneTarget s.cfg 3 v)] }
  | writeSkipped (k : Channel) : Effect s (maybeWriteOf k) s
  | valueWritten (k : Channel) (v : U10) (held : s.target[k] = some v) : Effect s (maybeWriteOf k)
      { s.afterBytes (valueEvents s.cfg k v) ((payloadOf s.cfg v).getLsbD 0) with
        cacheVal := s.cacheVal.set k (some v)
        cacheVld := s.cacheVld.set k true }
  | timerArmed : Effect s .armTimer { ({ s with tmr := s.tmr.arm }).pulseTmrArm with phase := phaseWaitTmr }
  | timerTaken : Effect s .takeTimer { s with tmr := s.tmr.take, phase := 0x4 }
  | interpolated (c : CurveNo) (v : U10) : Effect s (.interp c v)
      (s.withResult (.s32 ((evalSegment s.cfg.curveRom c v).r.sshiftRight 5)))
  | clamped (v : S32) : Effect s (.clamp10 v) (s.withResult (.u10 (clamp10 v)))
  | sampleClamped (d : S16) : Effect s (.clampSample d) (s.withResult (.u10 (clampSample d)))
  | byteSent (b : Byte) : Effect s (.sendByte b) (s.afterBytes (byteEvents b) (b.getLsbD 0))
  | filterValueSent (v : U10) : Effect s (.sendFilterValue v)
      (s.afterBytes (wordEvents (valueFrameWord s.cfg.cmdTag (payloadOf s.cfg v))) ((payloadOf s.cfg v).getLsbD 0))
  | wpSent : Effect s .sendWp (s.afterBytes (wordEvents (wpWord s.cfg)) (s.cfg.wpByte1.getLsbD 0))
  | selected (k : Channel) : Effect s (.select k)
      { s with sel := some k, trace := s.trace ++ [.cs (csMask (some k))] }
  | deselected : Effect s .deselect { s with sel := none, trace := s.trace ++ [.cs (csMask none)] }
  | valueFrameSent (tag : BitVec 2) (payload : U10) : Effect s (.valueFrame tag payload)
      (s.afterBytes (wordEvents (valueFrameWord tag payload)) ((frameLow (valueFrameWord tag payload)).getLsbD 0))
  | wpFrameSent (byte0 byte1 : Byte) : Effect s (.wpFrame byte0 byte1)
      (s.afterBytes (wordEvents (wpFrameWord byte0 byte1)) ((frameLow (wpFrameWord byte0 byte1)).getLsbD 0))

variable {s t u : State} {i : Instr} {r : Res} {f : Fault}

/-! ### Every answer of `exec` is an effect -/

theorem Effect.of_raised (h : r.outcome = .next t) (hr : r = .raised f s) : Effect s i t := by
  subst hr
  cases h
  exact .raised i f

theorem Effect.of_done (h : r.outcome = .next t) (hr : r = .done u) (hu : Effect s i u) : Effect s i t := by
  subst hr
  cases h
  exact hu

/-- The operations that send a byte, a value or a frame raise with no channel selected (R151) and finish with one. -/
theorem Effect.of_send (h : r.outcome = .next t) (unselected : s.sel = none → r = .raised f s)
    (selected : ∀ k, s.sel = some k → r = .done u) (hu : Effect s i u) : Effect s i t := by
  cases hs : s.sel with
  | none => exact .of_raised h (unselected hs)
  | some k => exact .of_done h (selected k hs) hu

theorem Effect.of_maybeWrite (k : Channel) (h : (maybeWriteTarget k s).outcome = .next t) :
    Effect s (maybeWriteOf k) t := by
  rcases maybeWriteTarget_cases k s with ⟨f, hr⟩ | hr | ⟨v, held, -, -, -, hr⟩
  · exact .of_raised h hr
  · exact .of_done h hr (.writeSkipped k)
  · exact .of_done h hr (.valueWritten k v held)

theorem Effect.of_disableWp (k : Channel) (h : (disableWp k s).outcome = .next t) : Effect s (.disableWp k) t := by
  cases hs : s.sel with
  | none => exact .of_done h (disableWp_idle hs k) (.wpDisabled k)
  | some j => exact .of_raised h (disableWp_busy hs k)

theorem Effect.of_select (k : Channel) (h : (select k s).outcome = .next t) : Effect s (.select k) t := by
  cases hs : s.sel with
  | none => exact .of_done h (select_idle hs k) (.selected k)
  | some j => exact .of_raised h (select_busy hs k)

theorem Effect.of_bankEval (h : (bankEval s).outcome = .next t) : Effect s .bankEval t := by
  cases hs : s.sample with
  | none => exact .of_raised h (bankEval_unwritten hs)
  | some v => exact .of_done h (bankEval_done hs) (.bankEvaluated v hs)

/-- What an operation can do, whichever it is and whatever state it starts from. -/
theorem exec_effect (h : exec i s = .next t) : Effect s i t := by
  cases i with
  | disableWp k => exact .of_disableWp k h
  | requestSample => cases h; exact .sampleRequested
  | takeSample => cases h; exact .sampleTaken
  | bankEval => exact .of_bankEval h
  | maybeWrite0 => exact .of_maybeWrite 0 h
  | maybeWrite1 => exact .of_maybeWrite 1 h
  | maybeWrite2 => exact .of_maybeWrite 2 h
  | maybeWrite3 => exact .of_maybeWrite 3 h
  | armTimer => cases h; exact .timerArmed
  | takeTimer => cases h; exact .timerTaken
  | reservedD => exact .of_raised h rfl
  | reservedEF low => exact .of_raised h rfl
  | interp c v => exact .of_done h (by rw [interp_ok, Res.withValue_ok]) (.interpolated c v)
  | clamp10 v => cases h; exact .clamped v
  | clampSample d => cases h; exact .sampleClamped d
  | sendByte b => exact .of_send h (sendByte_unselected · b) (fun _ hs => sendByte_selected hs b) (.byteSent b)
  | sendFilterValue v =>
    exact .of_send h (sendFilterValue_unselected · v) (fun _ hs => sendFilterValue_selected hs v) (.filterValueSent v)
  | sendWp => exact .of_send h sendWp_unselected (fun _ hs => sendWp_selected hs) .wpSent
  | select k => exact .of_select k h
  | deselect => exact .of_done h (deselect_eq s) .deselected
  | valueFrame tag payload =>
    exact .of_send h (sendFrame_unselected · _) (fun _ hs => sendFrame_selected hs _) (.valueFrameSent tag payload)
  | wpFrame byte0 byte1 =>
    exact .of_send h (sendFrame_unselected · _) (fun _ hs => sendFrame_selected hs _) (.wpFrameSent byte0 byte1)

/-! ### Who writes each element (spec/10_state.md R24 to R34) -/

theorem Effect.sample (h : Effect s i t) : t.sample = s.sample ∨ i = .takeSample := by
  cases h with
  | sampleTaken => exact .inr rfl
  | _ => exact .inl rfl

theorem Effect.target (h : Effect s i t) : t.target = s.target ∨ i = .bankEval := by
  cases h with
  | bankEvaluated => exact .inr rfl
  | _ => exact .inl rfl

theorem Effect.cache (h : Effect s i t) (k : Channel) :
    (t.cacheVld[k] = s.cacheVld[k] ∧ t.cacheVal[k] = s.cacheVal[k]) ∨ i = maybeWriteOf k := by
  cases h with
  | valueWritten j v held =>
    by_cases hjk : j = k
    · exact .inr (congrArg maybeWriteOf hjk)
    · have other : j.val ≠ k.val := Fin.val_ne_of_ne hjk
      exact .inl ⟨Vector.getElem_set_ne j.isLt k.isLt other, Vector.getElem_set_ne j.isLt k.isLt other⟩
  | _ => exact .inl ⟨rfl, rfl⟩

theorem Effect.wpDone (h : Effect s i t) (k : Channel) : t.wpDone[k] = s.wpDone[k] ∨ i = .disableWp k := by
  cases h with
  | wpDisabled j =>
    by_cases hjk : j = k
    · exact .inr (congrArg Instr.disableWp hjk)
    · exact .inl (Vector.getElem_set_ne j.isLt k.isLt (Fin.val_ne_of_ne hjk))
  | _ => exact .inl rfl

theorem Effect.adc (h : Effect s i t) : t.adc = s.adc ∨ i = .requestSample ∨ i = .takeSample := by
  cases h with
  | sampleRequested => exact .inr (.inl rfl)
  | sampleTaken => exact .inr (.inr rfl)
  | _ => exact .inl rfl

theorem Effect.tmr (h : Effect s i t) : t.tmr = s.tmr ∨ i = .armTimer ∨ i = .takeTimer := by
  cases h with
  | timerArmed => exact .inr (.inl rfl)
  | timerTaken => exact .inr (.inr rfl)
  | _ => exact .inl rfl

theorem Effect.phase (h : Effect s i t) :
    t.phase = s.phase ∨ i = .requestSample ∨ i = .takeSample ∨ i = .armTimer ∨ i = .takeTimer := by
  cases h with
  | sampleRequested => exact .inr (.inl rfl)
  | sampleTaken => exact .inr (.inr (.inl rfl))
  | timerArmed => exact .inr (.inr (.inr (.inl rfl)))
  | timerTaken => exact .inr (.inr (.inr (.inr rfl)))
  | _ => exact .inl rfl

/-- R180: an operation that selects a channel of its own releases it again. -/
theorem Effect.sel (h : Effect s i t) : t.sel = s.sel ∨ i = .deselect ∨ ∃ k : Channel, i = .select k := by
  cases h with
  | selected k => exact .inr (.inr ⟨k, rfl⟩)
  | deselected => exact .inr (.inl rfl)
  | _ => exact .inl rfl

theorem Effect.ret (h : Effect s i t) :
    t.ret = s.ret ∨ (∃ c v, i = .interp c v) ∨ (∃ v, i = .clamp10 v) ∨ ∃ d, i = .clampSample d := by
  cases h with
  | interpolated c v => exact .inr (.inl ⟨c, v, rfl⟩)
  | clamped v => exact .inr (.inr (.inl ⟨v, rfl⟩))
  | sampleClamped d => exact .inr (.inr (.inr ⟨d, rfl⟩))
  | _ => exact .inl rfl

theorem Effect.serial (h : Effect s i t) :
    (t.sclk = s.sclk ∧ t.sdata = s.sdata ∧ t.shreg = s.shreg ∧ t.bitcnt = s.bitcnt) ∨ (∃ b, i = .sendByte b) ∨
      (∃ v, i = .sendFilterValue v) ∨ i = .sendWp ∨ (∃ tag payload, i = .valueFrame tag payload) ∨
      (∃ byte0 byte1, i = .wpFrame byte0 byte1) ∨ (∃ k, i = .disableWp k) ∨ ∃ k, i = maybeWriteOf k := by
  cases h with
  | byteSent b => exact .inr (.inl ⟨b, rfl⟩)
  | filterValueSent v => exact .inr (.inr (.inl ⟨v, rfl⟩))
  | wpSent => exact .inr (.inr (.inr (.inl rfl)))
  | valueFrameSent tag payload => exact .inr (.inr (.inr (.inr (.inl ⟨tag, payload, rfl⟩))))
  | wpFrameSent byte0 byte1 => exact .inr (.inr (.inr (.inr (.inr (.inl ⟨byte0, byte1, rfl⟩)))))
  | wpDisabled k => exact .inr (.inr (.inr (.inr (.inr (.inr (.inl ⟨k, rfl⟩))))))
  | valueWritten k => exact .inr (.inr (.inr (.inr (.inr (.inr (.inr ⟨k, rfl⟩))))))
  | _ => exact .inl ⟨rfl, rfl, rfl, rfl⟩

theorem Effect.adcStart (h : Effect s i t) : t.adcStart = s.adcStart ∨ i = .requestSample := by
  cases h with
  | sampleRequested => exact .inr rfl
  | _ => exact .inl rfl

theorem Effect.tmrArm (h : Effect s i t) : t.tmrArm = s.tmrArm ∨ i = .armTimer := by
  cases h with
  | timerArmed => exact .inr rfl
  | _ => exact .inl rfl

/-- R34: the first fault stays. -/
theorem Effect.fault (h : Effect s i t) : t.fault = s.fault ∨ s.fault = none := by
  cases h with
  | raised i f =>
    cases hf : s.fault with
    | none => exact .inr rfl
    | some g => exact .inl (by simp [hf])
  | _ => exact .inl rfl

/-- R35 to R37, R63: what belongs to the environment, to the ports and to the configuration, no operation writes. -/
theorem Effect.environment (h : Effect s i t) :
    t.adcData = s.adcData ∧ t.turns = s.turns ∧ t.adcSync = s.adcSync ∧ t.tmrSync = s.tmrSync ∧ t.cfg = s.cfg := by
  cases h <;> exact ⟨rfl, rfl, rfl, rfl, rfl⟩

/-- R13: events are only ever appended. -/
theorem Effect.trace (h : Effect s i t) : ∃ events : List PinEvent, t.trace = s.trace ++ events := by
  cases h with
  | raised | sampleTaken | bankEvaluated | writeSkipped | timerTaken | interpolated | clamped | sampleClamped =>
    exact ⟨[], (List.append_nil _).symm⟩
  | _ => exact ⟨_, rfl⟩

/-- Settles O35: the thirteen clauses are those of `Effect`, element by element. -/
theorem onlyNamedOperationsWriteEachElement : Obligations.OnlyNamedOperationsWriteEachElement := by
  intro i s t h
  have e := exec_effect h
  exact ⟨e.sample, e.target, e.cache, e.wpDone, e.adc, e.tmr, e.phase, e.sel, e.ret, e.serial, e.adcStart, e.tmrArm,
    e.fault⟩

/-- Settles O36: the ROM is part of the configuration, so an operation that keeps that keeps every word. -/
theorem operationsLeaveTheEnvironmentAlone : Obligations.OperationsLeaveTheEnvironmentAlone := by
  intro i s t h
  have e := exec_effect h
  obtain ⟨word, turns, adcSync, tmrSync, cfg⟩ := e.environment
  exact ⟨word, turns, adcSync, tmrSync, cfg, fun c a p => by rw [cfg], e.trace⟩

end Sys2Proof.Machine
end

section
/-! Who moves the phase and who writes the fault record (spec/10_state.md R21 to R23, R34): the controller's step and the
environment's events, once per agent. -/

namespace Sys2Proof.Machine

variable {s s0 t : State} {e : EnvEvent} {f : Fault}

/-! ### The agents' turns and the events -/

theorem State.enabled_of_fault (h : s.fault = some f) : s.enabled = false := by
  simp [State.enabled, h]

theorem ControllerTurn.fault_eq (h : ControllerTurn s s0) : s0.fault = s.fault := by
  obtain ⟨rest, rfl⟩ := h.fields
  rfl

theorem EnvironmentTurn.fault_eq (h : EnvironmentTurn s e s0) : s0.fault = s.fault := by
  obtain ⟨rest, rfl⟩ := h.fields
  rfl

theorem step_suspended (h : ControllerTurn s s0) (suspended : s0.enabled = false) : step s = .next s0 := by
  rw [step_controllerTurn h, controllerStep_suspended suspended]

theorem deliver_phase (s : State) (he : e ≠ .reset) : (deliver e s).phase = s.phase := by
  cases e with
  | reset => exact absurd rfl he
  | adcDone d => exact adcDoneEvent_phase s d
  | tmrExpired => exact tmrExpiredEvent_phase s

theorem deliver_fault (s : State) (he : e ≠ .reset) : (deliver e s).fault = s.fault := by
  cases e with
  | reset => exact absurd rfl he
  | adcDone d => exact adcDoneEvent_fault s d
  | tmrExpired => exact tmrExpiredEvent_fault s

theorem deliver_reset_phase (s : State) : (deliver .reset s).phase = 0x0 := rfl

theorem deliver_reset_fault (s : State) : (deliver .reset s).fault = none := rfl

/-- Settles O16: a recorded fault shuts the controller off, every operation keeps it, and of the events only `RESET`
clears it. -/
theorem recordedFaultStaysUntilReset : Obligations.RecordedFaultStaysUntilReset := by
  intro s f hf
  refine ⟨State.enabled_of_fault hf, fun i t h => ?_, fun s0 turn => ?_, fun s0 t e turn h => ?_⟩
  · rcases (exec_effect h).fault with kept | unfaulted
    · rw [kept, hf]
    · simp [unfaulted] at hf
  · exact step_suspended turn (State.enabled_of_fault (turn.fault_eq.trans hf))
  · rw [step_environmentTurn turn] at h
    cases h
    refine ⟨fun he => ?_, fun he => ?_⟩
    · subst he
      exact deliver_reset_fault s0
    · rw [deliver_fault s0 he, turn.fault_eq, hf]

/-! ### The successor table -/

/-- R87: the reserved codes, as the decoder reads them. -/
theorem decodePhase_reserved (p : PhaseCode) (h : 0xD ≤ p.toNat) :
    (decodePhase p = .reservedD ∧ p = 0xD) ∨ ∃ low : BitVec 1, decodePhase p = .reservedEF low ∧ p = 0b111#3 ++ low := by
  revert p; decide

/-- R217: the operation of a reserved phase raises, whatever else the state holds. -/
theorem exec_fetch_reserved (h : 0xD ≤ s.phase.toNat) :
    exec (fetch s) s = .next (s.faulted (.badPhase s.phase)) := by
  unfold fetch
  rcases decodePhase_reserved s.phase h with ⟨hi, hp⟩ | ⟨low, hi, hp⟩
  · rw [hi, hp]; rfl
  · rw [hi, hp]; rfl

/-- R23: the pairs `nextPhase` makes of the codes that have a successor. -/
theorem nextPhase_mem_successors (p : PhaseCode) (h : p.toNat < 0xD) :
    (p, nextPhase p) ∈ ([(0x0, 0x1), (0x1, 0x2), (0x2, 0x3), (0x3, 0x4), (0x4, 0x5), (0x5, 0x6), (0x6, 0x7), (0x7, 0x8),
      (0x8, 0x9), (0x9, 0xA), (0xA, 0xB), (0xB, 0xC), (0xC, 0x4)] : List (PhaseCode × PhaseCode)) := by
  revert p; decide

/-- R201, R217: a controller step that raises nothing stood at a legal phase and moved it to its successor. -/
theorem step_enabled_phase (turn : ControllerTurn s s0) (enabled : s0.enabled = true) (h : step s = .next t)
    (noFault : t.fault = none) : s0.phase.toNat < 0xD ∧ t.phase = nextPhase s0.phase := by
  obtain ⟨u, hu⟩ := exec_answers_next (fetch s0) s0
  rw [step_controllerTurn turn, controllerStep_enabled enabled hu] at h
  injection h with h
  split at h
  next unraised =>
    subst h
    refine ⟨Nat.lt_of_not_le fun reserved => ?_, rfl⟩
    rw [exec_fetch_reserved reserved] at hu
    cases hu
    simp at unraised
  next raised => exact absurd (h ▸ noFault) raised

/-- Settles O13: the enabled step by `nextPhase`, the suspended one and the events by what they leave alone. -/
theorem phaseMovesOnlyByTheSuccessorTable : Obligations.PhaseMovesOnlyByTheSuccessorTable := by
  intro s s0 t h
  refine ⟨fun turn enabled noFault => ?_, fun turn suspended => ?_, fun turn => ?_, fun e he turn => ?_⟩
  · obtain ⟨legal, moved⟩ := step_enabled_phase turn enabled h noFault
    rw [moved]
    exact nextPhase_mem_successors s0.phase legal
  · rw [step_suspended turn suspended] at h
    cases h
    rfl
  · rw [step_environmentTurn turn] at h
    cases h
    exact deliver_reset_phase s0
  · rw [step_environmentTurn turn] at h
    cases h
    exact deliver_phase s0 he

/-- R21: the table's third column, code by code. -/
theorem updateStateOf_table (p : PhaseCode) :
    (p.toNat ≤ 4 → updateStateOf p = some .sleeping) ∧ (p = 0x5 → updateStateOf p = some .waitingForRead) ∧
    (6 ≤ p.toNat → p.toNat ≤ 0xC → updateStateOf p = some .writingValues) ∧ (0xD ≤ p.toNat → updateStateOf p = none) := by
  revert p; decide

/-- Settles O14: `st` is `updateStateOf` of the phase, and that is R21's table. -/
theorem updateStateIsAFunctionOfThePhase : Obligations.UpdateStateIsAFunctionOfThePhase :=
  ⟨fun s => updateStateOf_table s.phase, rfl, rfl, rfl⟩

end Sys2Proof.Machine
end

section
/-! The chip-select lines (spec/10_state.md R29), the registers with no value (R40) and the reset values (R39). -/

namespace Sys2Proof.Machine

/-! ### Lines and unwritten registers -/

/-- R29: a selection pulls its own line low and no other. -/
theorem csMask_some_getLsbD (k j : Channel) : (csMask (some k)).getLsbD j = decide (j ≠ k) := by
  revert k j; decide

/-- Settles O28: the two rows of R29, through `csMask`. -/
theorem chipSelectLinesFollowSelection : Obligations.ChipSelectLinesFollowSelection := by
  intro s
  refine ⟨fun idle => ?_, fun k j selected => ?_⟩
  · rw [State.csN, idle]; rfl
  · rw [State.csN, selected, csMask_some_getLsbD]

/-- R175, R40: the gate reads `cache_val[k]` only where nothing before it has opened it. -/
theorem changed_unwritten {s : State} {k : Channel} (v : U10) (gated : s.cfg.alwaysWrite = false)
    (valid : s.cacheVld[k] = true) (empty : s.cacheVal[k] = none) :
    s.changed k v = .error (.unwritten (.cacheVal k)) := by
  simp [State.changed, gated, valid, empty]

/-- Settles O31: the target is read before the call, the cache inside the gate. -/
theorem unwrittenReadRaises : Obligations.UnwrittenReadRaises := by
  intro k s
  rw [exec_maybeWriteOf]
  refine ⟨fun empty => ?_, fun v held wpDone gated valid empty => ?_⟩
  · rw [maybeWriteTarget_none empty, Res.outcome_raised]
  · rw [maybeWriteTarget_some held, maybeWrite_unwritten wpDone (changed_unwritten v gated valid empty),
      Res.outcome_raised]

/-! ### The reset state -/

variable (cfg : Config) (k : Channel)

theorem resetOf_target : (State.resetOf cfg).target[k] = none := by
  match k with
  | 0 | 1 | 2 | 3 => rfl

theorem resetOf_wpDone : (State.resetOf cfg).wpDone[k] = false := by
  match k with
  | 0 | 1 | 2 | 3 => rfl

theorem resetOf_cacheVld : (State.resetOf cfg).cacheVld[k] = cacheVldAtReset cfg.cacheReset :=
  Vector.getElem_replicate _

theorem resetOf_cacheVal : (State.resetOf cfg).cacheVal[k] = cacheValAtReset cfg.cacheReset :=
  Vector.getElem_replicate _

/-- R26: at reset a valid cache register holds a value, under either setting. -/
theorem cacheValAtReset_isSome {c : CacheReset} (h : cacheVldAtReset c = true) : (cacheValAtReset c).isSome = true := by
  cases c with
  | sentinel => cases h
  | zero => rfl

theorem synchronizerReset_flop {n : Nat} {flop : Bool} (h : flop ∈ (Synchronizer.reset n).stages) : flop = false :=
  List.eq_of_mem_replicate h

theorem synchronizerReset_length (n : Nat) : (Synchronizer.reset n).stages.length = n :=
  List.length_replicate

/-- R39, R284: power-on meets the operating invariant, clause by clause. -/
theorem inv_resetOf : Inv (State.resetOf cfg) where
  noFault := rfl
  legalPhase := Nat.zero_le 12
  adcEnabled := iff_of_false Bool.false_ne_true (by decide : (0x0 : PhaseCode) ≠ phaseWaitAdc)
  adcPending := id
  tmrEnabled := iff_of_false Bool.false_ne_true (by decide : (0x0 : PhaseCode) ≠ phaseWaitTmr)
  tmrPending := id
  idle := rfl
  clockLow := rfl
  writeProtect k := by
    rw [resetOf_wpDone]
    simp [State.resetOf]
  sampleHeld late := absurd late (by decide : ¬ 6 ≤ (0x0 : PhaseCode).toNat)
  targetsHeld late := absurd late (by decide : ¬ 7 ≤ (0x0 : PhaseCode).toNat)
  cacheHeld k := by
    rw [resetOf_cacheVld, resetOf_cacheVal]
    exact cacheValAtReset_isSome
  shifterEmpty := ⟨rfl, rfl⟩
  noPulse := ⟨rfl, rfl⟩
  linesFollow := rfl
  framed := rfl
  syncDepth := ⟨synchronizerReset_length _, synchronizerReset_length _⟩

/-- Settles O37: the model's reset state is the power-on state of its default configuration. -/
theorem powerOnMeetsTheInvariant : Obligations.PowerOnMeetsTheInvariant :=
  ⟨inv_resetOf, inv_resetOf Config.default⟩

/-- Settles O50: the per-channel rows by the lemmas above, the two `CACHE_RESET` rows by the setting, the flops by their
replication; every other row is the field itself. -/
theorem resetValuesAreTheTable : Obligations.ResetValuesAreTheTable := by
  intro cfg
  have sentinelRow (h : cfg.cacheReset = .sentinel) (k : Channel) :
      (State.resetOf cfg).cacheVld[k] = false ∧ (State.resetOf cfg).cacheVal[k] = none := by
    rw [resetOf_cacheVld, resetOf_cacheVal, h]
    exact ⟨rfl, rfl⟩
  have zeroRow (h : cfg.cacheReset = .zero) (k : Channel) :
      (State.resetOf cfg).cacheVld[k] = true ∧ (State.resetOf cfg).cacheVal[k] = some 0 := by
    rw [resetOf_cacheVld, resetOf_cacheVal, h]
    exact ⟨rfl, rfl⟩
  have flops : ∀ flop ∈ (State.resetOf cfg).adcSync.stages ++ (State.resetOf cfg).tmrSync.stages, flop = false := by
    intro flop hflop
    rcases List.mem_append.1 hflop with h | h
    · exact synchronizerReset_flop h
    · exact synchronizerReset_flop h
  exact ⟨rfl, rfl, rfl, resetOf_target cfg, sentinelRow, zeroRow, rfl, rfl, rfl, rfl, rfl, rfl, resetOf_wpDone cfg, rfl,
    flops, rfl, rfl, rfl, rfl, rfl, rfl, rfl, rfl⟩

end Sys2Proof.Machine
end

section
/-! The address space (spec/20_memory.md): a ROM address is the concatenation of its fields (R61), an event of the
environment is one whole step (R72), and nothing that moves writes the ROM (R63). -/

namespace Sys2Proof.Machine

variable {s s0 t : State} {e : EnvEvent} {i : Instr}

/-! ### Addresses -/

/-- A concatenation weighs its left part by the width of its right one. -/
theorem toNat_append_eq_mul_add {m n : Nat} (x : BitVec m) (y : BitVec n) :
    (x ++ y).toNat = x.toNat * 2 ^ n + y.toNat := by
  rw [BitVec.toNat_append, ← Nat.shiftLeft_add_eq_or_of_lt y.isLt, Nat.shiftLeft_eq]

/-- Settles O8: the weights of the fields are the widths of what stands to their right. -/
theorem romAddressConcatenatesItsFields : Obligations.RomAddressConcatenatesItsFields := by
  intro c a p
  rw [romAddress, toNat_append_eq_mul_add, toNat_append_eq_mul_add]
  omega

/-! ### The environment's step -/

/-- Settles O11: by what a step does on the environment's turn. -/
theorem environmentEventIsOneStep : Obligations.EnvironmentEventIsOneStep :=
  fun _ _ _ turn => step_environmentTurn turn

/-! ### Who writes the configuration -/

/-- R63: every operation leaves the configuration, on every path. -/
theorem exec_cfg (h : exec i s = .next t) : t.cfg = s.cfg := by
  obtain ⟨-, -, -, -, cfg⟩ := (exec_effect h).environment
  exact cfg

theorem deliver_cfg (e : EnvEvent) (s : State) : (deliver e s).cfg = s.cfg := by
  cases e with
  | reset => rfl
  | adcDone d => exact adcDoneEvent_cfg s d
  | tmrExpired => exact tmrExpiredEvent_cfg s

theorem ControllerTurn.cfg_eq (h : ControllerTurn s s0) : s0.cfg = s.cfg := by
  obtain ⟨rest, rfl⟩ := h.fields
  rfl

theorem EnvironmentTurn.cfg_eq (h : EnvironmentTurn s e s0) : s0.cfg = s.cfg := by
  obtain ⟨rest, rfl⟩ := h.fields
  rfl

/-- R63: a step, of either agent, leaves the configuration. -/
theorem step_cfg (h : step s = .next t) : t.cfg = s.cfg := by
  rcases step_cases h with ⟨s0, turn, -, rfl⟩ | ⟨s0, u, turn, -, run, -, rfl⟩ | ⟨s0, turn, -, run, -⟩ |
    ⟨e, s0, turn, rfl⟩
  case inl => exact turn.cfg_eq
  case inr.inl => exact (exec_cfg run).trans turn.cfg_eq
  case inr.inr.inl => exact (exec_cfg run).trans turn.cfg_eq
  case inr.inr.inr => exact (deliver_cfg e s0).trans turn.cfg_eq

/-- Settles O17: the ROM is part of the configuration, which operations, events and steps all leave. -/
theorem nothingWritesTheRom : Obligations.NothingWritesTheRom := by
  intro s t
  refine ⟨fun i h => exec_cfg h, fun e => deliver_cfg e s, fun h => ⟨step_cfg h, fun c a p => ?_⟩⟩
  rw [step_cfg h]

end Sys2Proof.Machine
end

section
/-! The encodings (spec/30_encoding.md R80 to R87): what the fields of a frame word are, that a word is its fields, and
that the decoder and the encoder undo each other. -/

namespace Sys2Proof

variable {i : Instr} {w : FrameWord} {code : PhaseCode} {tag : BitVec 2}

/-! ### The fields of a frame word (R81, R83) -/

@[simp] theorem valueFrameWord_pad (tag : BitVec 2) (payload : U10) :
    (valueFrameWord tag payload).extractLsb' 12 4 = 0#4 :=
  (BitVec.extractLsb'_append_eq_of_le (by decide)).trans BitVec.extractLsb'_append_eq_left

@[simp] theorem valueFrameWord_tag (tag : BitVec 2) (payload : U10) :
    (valueFrameWord tag payload).extractLsb' 10 2 = tag :=
  (BitVec.extractLsb'_append_eq_of_le (by decide)).trans BitVec.extractLsb'_append_eq_right

@[simp] theorem valueFrameWord_payload (tag : BitVec 2) (payload : U10) :
    (valueFrameWord tag payload).extractLsb' 0 10 = payload :=
  BitVec.extractLsb'_append_eq_right

/-- R81: a word with pad 0 is the value frame of its own two other fields. -/
theorem valueFrameWord_fields (pad : w.extractLsb' 12 4 = 0#4) :
    valueFrameWord (w.extractLsb' 10 2) (w.extractLsb' 0 10) = w := by
  have head : w.extractLsb' 12 4 ++ w.extractLsb' 10 2 = w.extractLsb' 10 6 :=
    BitVec.extractLsb'_append_extractLsb'_eq_extractLsb' rfl
  rw [valueFrameWord, ← pad, head]
  exact (BitVec.extractLsb'_append_extractLsb'_eq_extractLsb' rfl).trans BitVec.extractLsb'_eq_self

/-- R83: a word is its high byte and then its low byte. -/
theorem wpFrameWord_bytes (w : FrameWord) : wpFrameWord (frameHigh w) (frameLow w) = w :=
  (BitVec.extractLsb'_append_extractLsb'_eq_extractLsb' rfl).trans BitVec.extractLsb'_eq_self

/-- The bits of a WP frame above bit 7 are those of its first byte. -/
theorem wpFrameWord_extractLsb' (byte0 byte1 : Byte) {start len : Nat} (h : 8 ≤ start) :
    (wpFrameWord byte0 byte1).extractLsb' start len = byte0.extractLsb' (start - 8) len :=
  BitVec.extractLsb'_append_eq_of_le h

/-- R81, R86: which words are value frames with a given tag. -/
theorem exists_valueFrameWord_eq_iff :
    (∃ payload : U10, valueFrameWord tag payload = w) ↔ w.extractLsb' 12 4 = 0#4 ∧ w.extractLsb' 10 2 = tag := by
  constructor
  · rintro ⟨payload, rfl⟩
    exact ⟨valueFrameWord_pad tag payload, valueFrameWord_tag tag payload⟩
  · rintro ⟨pad, rfl⟩
    exact ⟨_, valueFrameWord_fields pad⟩

/-! ### The decoder and the encoder, format by format -/

theorem decodeValueFrame_of_pad_zero (pad : w.extractLsb' 12 4 = 0#4) :
    decodeValueFrame w = .ok (.valueFrame (w.extractLsb' 10 2) (w.extractLsb' 0 10)) :=
  if_pos pad

/-- R90: a pad other than 0 is rejected by name. -/
theorem decodeValueFrame_of_pad_ne_zero (pad : w.extractLsb' 12 4 ≠ 0#4) :
    decodeValueFrame w = .error (.padNotZero (w.extractLsb' 12 4)) :=
  if_neg pad

@[simp] theorem decodeValueFrame_valueFrameWord (tag : BitVec 2) (payload : U10) :
    decodeValueFrame (valueFrameWord tag payload) = .ok (.valueFrame tag payload) := by
  rw [decodeValueFrame_of_pad_zero (valueFrameWord_pad tag payload), valueFrameWord_tag, valueFrameWord_payload]

/-- R87: each phase code is the code of the operation it selects. -/
@[simp] theorem encodePhase_decodePhase (code : PhaseCode) : encodePhase (decodePhase code) = some code := by
  revert code; decide

theorem encode_decodePhase (code : PhaseCode) : encode (decodePhase code) = some (.phase code) := by
  revert code; decide

/-- R87: an operation's phase code selects that operation. -/
theorem decodePhase_of_encodePhase (h : encodePhase i = some code) : decodePhase code = i := by
  cases i with
  | disableWp k =>
    cases h
    revert k; decide
  | reservedEF low =>
    cases h
    revert low; decide
  | _ => cases h <;> rfl

/-- What has a code word, and which: the two frame rows theirs, any other operation its phase code. -/
theorem encode_cases {c : CodeWord} (h : encode i = some c) :
    (∃ tag payload, i = .valueFrame tag payload ∧ c = .valueFrame (valueFrameWord tag payload)) ∨
    (∃ byte0 byte1, i = .wpFrame byte0 byte1 ∧ c = .wpFrame (wpFrameWord byte0 byte1)) ∨
    ∃ code, encodePhase i = some code ∧ c = .phase code := by
  unfold encode at h
  split at h
  · cases h
    exact .inl ⟨_, _, rfl, rfl⟩
  · cases h
    exact .inr (.inl ⟨_, _, rfl, rfl⟩)
  · obtain ⟨code, hcode, rfl⟩ := Option.map_eq_some_iff.1 h
    exact .inr (.inr ⟨code, hcode, rfl⟩)

/-! ### The statements -/

/-- Settles O2: format by format, each field of the word read back from its place. -/
theorem encodedInstructionDecodesBack : Obligations.EncodedInstructionDecodesBack := by
  intro i c h
  rcases encode_cases h with ⟨tag, payload, rfl, rfl⟩ | ⟨byte0, byte1, rfl, rfl⟩ | ⟨code, hcode, rfl⟩
  · exact decodeValueFrame_valueFrameWord tag payload
  · rw [decode, Machine.frameHigh_wpFrameWord, Machine.frameLow_wpFrameWord]
  · rw [decode, decodePhase_of_encodePhase hcode]

/-- Settles O3: format by format, the word put together again from its fields. -/
theorem decodedWordEncodesBack : Obligations.DecodedWordEncodesBack := by
  intro c i h
  cases c with
  | phase code =>
    cases h
    exact encode_decodePhase code
  | valueFrame w =>
    by_cases pad : w.extractLsb' 12 4 = 0#4
    · rw [decode, decodeValueFrame_of_pad_zero pad] at h
      cases h
      rw [encode, valueFrameWord_fields pad]
    · rw [decode, decodeValueFrame_of_pad_ne_zero pad] at h
      cases h
  | wpFrame w =>
    cases h
    rw [encode, wpFrameWord_bytes]

/-- Settles O6: the pad and the tag of the WP frame's word stand in its first byte. -/
theorem frameKindsShareWords : Obligations.FrameKindsShareWords := by
  intro byte0 byte1 tag
  rw [exists_valueFrameWord_eq_iff, wpFrameWord_extractLsb' byte0 byte1 (by decide),
    wpFrameWord_extractLsb' byte0 byte1 (by decide)]

/-- Settles O7: the decoder's other branch. -/
theorem valueFrameWithNonzeroPadIsRejected : Obligations.ValueFrameWithNonzeroPadIsRejected :=
  fun _ pad => decodeValueFrame_of_pad_ne_zero pad

end Sys2Proof
end

section
/-! The frames as they go out (spec/41_serial_bus.md R147 to R151) and as a receiver reads them (R143,
spec/30_encoding.md R84, R85). -/

namespace Sys2Proof.Machine

/-! ### Sending a frame -/

@[simp] theorem frameLow_valueFrameWord (tag : BitVec 2) (payload : U10) :
    frameLow (valueFrameWord tag payload) = payload.extractLsb' 0 8 := by
  unfold frameLow valueFrameWord
  rw [BitVec.extractLsb'_append_eq_of_add_le (by decide)]

/-- The last bit of a value frame is the payload's. -/
theorem frameLow_valueFrameWord_getLsbD_zero (tag : BitVec 2) (payload : U10) :
    (frameLow (valueFrameWord tag payload)).getLsbD 0 = payload.getLsbD 0 := by
  simp

theorem wordEvents_wpFrameWord (byte0 byte1 : Byte) :
    wordEvents (wpFrameWord byte0 byte1) = byteEvents byte0 ++ byteEvents byte1 := by
  rw [wordEvents, frameHigh_wpFrameWord, frameLow_wpFrameWord]

variable {s : State} {k : Channel}

theorem exec_valueFrame_selected (h : s.sel = some k) (tag : BitVec 2) (payload : U10) :
    exec (.valueFrame tag payload) s =
      .next (s.afterBytes (wordEvents (valueFrameWord tag payload)) (payload.getLsbD 0)) := by
  rw [exec, execValueFrame, sendFrame_selected h, frameLow_valueFrameWord_getLsbD_zero, Res.outcome_done]

theorem exec_wpFrame_selected (h : s.sel = some k) (byte0 byte1 : Byte) :
    exec (.wpFrame byte0 byte1) s =
      .next (s.afterBytes (wordEvents (wpFrameWord byte0 byte1)) (byte1.getLsbD 0)) := by
  rw [exec, execWpFrame, sendFrame_selected h, frameLow_wpFrameWord, Res.outcome_done]

/-- Settles O4: the fields by their places in the word, the two bytes by the model's own split (R149), and both
operations append the events of that word. -/
theorem valueFrameCarriesTagAndPayload : Obligations.ValueFrameCarriesTagAndPayload := by
  intro s k v h payload w
  refine ⟨valueFrameWord_pad _ _, valueFrameWord_tag _ _, valueFrameWord_payload _ _,
    (valueByteHigh_eq s.cfg payload).symm, frameLow_valueFrameWord _ _, ?_⟩
  rw [exec_valueFrame_selected h, exec, execSendFilterValue, sendFilterValue_selected h, Res.outcome_done]

/-- Settles O5: the bytes by their places in the word, and both operations append the events of that word. -/
theorem wpFrameCarriesTheTwoConstants : Obligations.WpFrameCarriesTheTwoConstants := by
  intro s k h
  refine ⟨rfl, frameHigh_wpFrameWord _ _, frameLow_wpFrameWord _ _, ?_⟩
  rw [exec_wpFrame_selected h, exec, execSendWp, sendWp_selected h, Res.outcome_done, wpWord]

/-- Settles O26: with a channel selected both bytes go out, with none the first one raises. -/
theorem frameGoesOutHighByteFirst : Obligations.FrameGoesOutHighByteFirst := by
  intro s
  refine ⟨fun k tag payload h => exec_valueFrame_selected h tag payload, fun k byte0 byte1 h => ?_,
    fun tag payload h => ?_, fun byte0 byte1 h => ?_⟩
  · rw [exec_wpFrame_selected h, wordEvents_wpFrameWord]
  · rw [exec, execValueFrame, sendFrame_unselected h, Res.outcome_raised]
  · rw [exec, execWpFrame, sendFrame_unselected h, frameHigh_wpFrameWord, Res.outcome_raised]

/-! ### Receiving a frame -/

/-- R84: a word goes out as sixteen bit cells, bit 15 first. -/
theorem wordEvents_eq_cells (w : FrameWord) :
    wordEvents w = (byteBits (frameHigh w) ++ byteBits (frameLow w)).flatMap cellEvents := by
  rw [wordEvents, byteEvents, byteEvents, List.flatMap_append]

variable {j : Channel} {r : Receiver}

/-- R13: whatever a receiver samples, the levels it sees are those the events drive. -/
theorem observe_lines (j : Channel) (edge : Bool) (r : Receiver) (e : PinEvent) :
    (Receiver.observe j edge r e).lines = r.lines.drive e := by
  cases e <;> simp only [Receiver.observe]
  case clk => split <;> rfl
  case cs => split_ifs <;> rfl

theorem observe_dat (j : Channel) (edge level : Bool) (r : Receiver) :
    Receiver.observe j edge r (.dat level) = { r with lines := { r.lines with dat := level } } := rfl

/-- R143: a selected receiver samples the data line where the clock moves to its own edge. -/
theorem observe_clk_selected (edge level : Bool) (hsel : r.lines.cs.getLsbD j = false) :
    Receiver.observe j edge r (.clk level) =
      { r with
        lines := { r.lines with clk := level }
        bits := r.bits ++ if level = edge ∧ r.lines.clk ≠ level then [r.lines.dat] else [] } := by
  simp only [Receiver.observe, Lines.drive, hsel]
  by_cases sampled : level = edge ∧ r.lines.clk ≠ level
  · obtain ⟨rfl, moved⟩ := sampled
    simp [moved]
  · rw [if_neg (by simpa using sampled), if_neg sampled, List.append_nil]

/-- R85: a receiver whose line is high samples nothing. -/
theorem observe_clk_unselected (edge level : Bool) (hsel : r.lines.cs.getLsbD j = true) :
    Receiver.observe j edge r (.clk level) = { r with lines := { r.lines with clk := level } } := by
  simp only [Receiver.observe, Lines.drive, hsel, Bool.not_true, Bool.false_and, Bool.false_eq_true, if_false]

/-- R143: a bit cell gives a selected receiver its one bit, on either edge of the clock, and leaves the clock low. -/
theorem observe_cell_selected (edge : Bool) (hclk : r.lines.clk = false) (hsel : r.lines.cs.getLsbD j = false)
    (level : Bool) :
    (cellEvents level).foldl (Receiver.observe j edge) r =
      { r with lines := { r.lines with clk := false, dat := level }, bits := r.bits ++ [level] } := by
  rw [cellEvents, List.foldl_cons, List.foldl_cons, List.foldl_cons, List.foldl_nil, observe_dat,
    observe_clk_selected, observe_clk_selected]
  · cases edge <;> simp [hclk]
  · exact hsel
  · rw [observe_lines]
    exact hsel

theorem observe_cell_unselected (edge : Bool) (hsel : r.lines.cs.getLsbD j = true) (level : Bool) :
    (cellEvents level).foldl (Receiver.observe j edge) r =
      { r with lines := { r.lines with clk := false, dat := level } } := by
  rw [cellEvents, List.foldl_cons, List.foldl_cons, List.foldl_cons, List.foldl_nil, observe_dat,
    observe_clk_unselected, observe_clk_unselected]
  · exact hsel
  · rw [observe_lines]
    exact hsel

/-- A selected receiver takes the bits of a run of cells in their order; only its clock and data lines move. -/
theorem observe_cells_selected (edge : Bool) (levels : List Bool) (hclk : r.lines.clk = false)
    (hsel : r.lines.cs.getLsbD j = false) :
    ∃ dat, (levels.flatMap cellEvents).foldl (Receiver.observe j edge) r =
      { r with lines := { r.lines with dat := dat }, bits := r.bits ++ levels } := by
  induction levels generalizing r with
  | nil => exact ⟨r.lines.dat, by simp⟩
  | cons level levels ih =>
    rw [List.flatMap_cons, List.foldl_append, observe_cell_selected edge hclk hsel]
    obtain ⟨dat, h⟩ := ih (r := { r with lines := { r.lines with clk := false, dat := level }, bits := r.bits ++ [level] })
      rfl hsel
    exact ⟨dat, by rw [h]; simp [hclk]⟩

/-- An unselected receiver takes nothing from a run of cells. -/
theorem observe_cells_unselected (edge : Bool) (levels : List Bool) (hclk : r.lines.clk = false)
    (hsel : r.lines.cs.getLsbD j = true) :
    ∃ dat, (levels.flatMap cellEvents).foldl (Receiver.observe j edge) r =
      { r with lines := { r.lines with dat := dat } } := by
  induction levels generalizing r with
  | nil => exact ⟨r.lines.dat, rfl⟩
  | cons level levels ih =>
    rw [List.flatMap_cons, List.foldl_append, observe_cell_unselected edge hsel]
    obtain ⟨dat, h⟩ := ih (r := { r with lines := { r.lines with clk := false, dat := level } }) rfl hsel
    exact ⟨dat, by rw [h]; simp [hclk]⟩

theorem csMask_none_getLsbD (j : Channel) : (csMask none).getLsbD j = true := by
  revert j; decide

/-- R91: opening a frame from reset drives the mask and clears what a receiver had gathered. -/
theorem observe_open (j : Channel) (edge : Bool) (mask : CsMask) :
    Receiver.observe j edge { lines := Lines.reset, bits := [], frames := [] } (.cs mask) =
      { lines := { Lines.reset with cs := mask }, bits := [], frames := [] } := by
  have high : Lines.reset.cs.getLsbD j = true := csMask_none_getLsbD j
  simp only [Receiver.observe, Lines.drive, high, Bool.not_true, Bool.false_and, Bool.false_eq_true, if_false]

/-- R91: the rising edge of a selected receiver's line ends its frame. -/
theorem observe_release_selected (edge : Bool) (hsel : r.lines.cs.getLsbD j = false) :
    (Receiver.observe j edge r (.cs (csMask none))).frames = r.frames ++ [r.bits] := by
  simp only [Receiver.observe, hsel, csMask_none_getLsbD, Bool.not_false, Bool.and_self, if_true]

theorem observe_release_unselected (edge : Bool) (hsel : r.lines.cs.getLsbD j = true) :
    (Receiver.observe j edge r (.cs (csMask none))).frames = r.frames := by
  simp only [Receiver.observe, hsel, Bool.not_true, Bool.false_and, Bool.false_eq_true, if_false]

/-- Settles O42: the mask pulls the line of the frame's channel low and no other, so that channel's receiver takes
the sixteen cells and closes the frame at the rising edge, and any other takes none and has no frame to close. -/
theorem receiverReadsTheFrameWord : Obligations.ReceiverReadsTheFrameWord := by
  intro k j edge w
  have line := csMask_some_getLsbD k j
  rw [received, frameEvents, wordEvents_eq_cells, List.cons_append, List.foldl_cons, List.foldl_append, observe_open]
  by_cases hjk : j = k
  · have low : (csMask (some k)).getLsbD j = false := by simpa [hjk] using line
    obtain ⟨dat, cells⟩ := observe_cells_selected edge (byteBits (frameHigh w) ++ byteBits (frameLow w))
      (r := { lines := { Lines.reset with cs := csMask (some k) }, bits := [], frames := [] }) rfl low
    rw [cells, if_pos hjk]
    exact observe_release_selected edge low
  · have high : (csMask (some k)).getLsbD j = true := by simpa [hjk] using line
    obtain ⟨dat, cells⟩ := observe_cells_unselected edge (byteBits (frameHigh w) ++ byteBits (frameLow w))
      (r := { lines := { Lines.reset with cs := csMask (some k) }, bits := [], frames := [] }) rfl high
    rw [cells, if_neg hjk]
    exact observe_release_unselected edge high

end Sys2Proof.Machine
end

section
/-! The controller's step (spec/30_encoding.md R87, spec/43_controller.md R201): when one is enabled, that it runs the
operation the phase selects, and that from a state as the phases before it leave it that operation raises nothing. -/

namespace Sys2Proof.Machine

variable {s u : State} {i : Instr} {code : PhaseCode}

/-! ### Enabled steps -/

/-- R201 `enabled`, in words. -/
theorem State.enabled_iff (noFault : s.fault = none) :
    s.enabled = true ↔ (s.phase = phaseWaitAdc → s.adc.pend = true) ∧ (s.phase = phaseWaitTmr → s.tmr.pend = true) := by
  have distinct : phaseWaitAdc ≠ phaseWaitTmr := by decide
  unfold State.enabled
  split
  next hp => simp [noFault, hp, distinct]
  next hp =>
    split
    next hq => simp [noFault, hq, distinct.symm]
    next hq => simp [noFault, hp, hq]

/-- R87: an operation without a phase code and a frame has no code word. -/
theorem encode_subOperation (h : i.format = .subOperation) : encode i = none := by
  cases i with
  | interp | clamp10 | clampSample | sendByte | sendFilterValue | sendWp | select | deselect => rfl
  | _ => cases h

/-- R217: what a reserved code decodes to raises that code. -/
theorem exec_decodePhase_reserved (s : State) (h : 0xD ≤ code.toNat) :
    exec (decodePhase code) s = .next (s.faulted (.badPhase code)) := by
  rcases decodePhase_reserved code h with ⟨hi, rfl⟩ | ⟨low, hi, rfl⟩
  · rw [hi]; rfl
  · rw [hi]; rfl

/-- Settles O1: the table by decoding, the enable by R201's condition, the reserved codes by what they decode to. -/
theorem phaseCodeSelectsOperation : Obligations.PhaseCodeSelectsOperation := by
  refine ⟨by decide, fun s noFault => State.enabled_iff noFault, fun code i s reserved h => ?_,
    fun i => encode_subOperation⟩
  cases h
  exact exec_decodePhase_reserved s reserved

/-- Settles O9: on the controller's turn the step is R201's, and that looks only at whether the operation raised. -/
theorem stepRunsSelectedOperation : Obligations.StepRunsSelectedOperation := by
  intro s s0 t i turn enabled h run
  cases h
  rw [step_controllerTurn turn, controllerStep_enabled enabled run]
  exact ⟨fun clean => by rw [if_pos clean], fun raised => by rw [if_neg raised]⟩

/-! ### Operations that raise nothing -/

/-- What the operation of the present phase needs in order to raise nothing (R40, R170, R174). -/
structure Runnable (s : State) : Prop where
  noFault : s.fault = none
  legalPhase : s.phase.toNat ≤ 12
  idle : s.sel = none
  sampleHeld : s.phase = 0x6 → s.sample.isSome = true
  writeReady : ∀ k : Channel, s.phase.toNat = 7 + k.val → s.wpDone[k] = true ∧ (s.target[k]).isSome = true
  cacheHeld : ∀ k : Channel, s.cacheVld[k] = true → (s.cacheVal[k]).isSome = true

/-- The operating invariant leaves every phase's operation what it needs. -/
theorem Inv.runnable (inv : Inv s) : Runnable s where
  noFault := inv.noFault
  legalPhase := inv.legalPhase
  idle := inv.idle
  sampleHeld hp := inv.sampleHeld (by rw [hp]; decide)
  writeReady k hp := ⟨(inv.writeProtect k).2 (by omega), inv.targetsHeld (by omega) k⟩
  cacheHeld := inv.cacheHeld

/-- R175, R40: where a valid cache holds a value the gate answers. -/
theorem changed_ok {k : Channel} (v : U10) (held : s.cacheVld[k] = true → (s.cacheVal[k]).isSome = true) :
    ∃ b, s.changed k v = .ok b := by
  unfold State.changed
  split
  · exact ⟨_, rfl⟩
  · split
    · exact ⟨_, rfl⟩
    next valid =>
      obtain ⟨old, hold⟩ := Option.isSome_iff_exists.1 (held (by simpa using valid))
      exact ⟨_, by rw [hold, readValue_some]⟩

theorem Runnable.maybeWriteTarget_done (r : Runnable s) {k : Channel} (hp : s.phase.toNat = 7 + k.val) :
    ∃ u, maybeWriteTarget k s = .done u ∧ u.fault = none := by
  obtain ⟨unprotected, written⟩ := r.writeReady k hp
  obtain ⟨v, hv⟩ := Option.isSome_iff_exists.1 written
  rw [maybeWriteTarget_some hv]
  obtain ⟨b, hb⟩ := changed_ok v (r.cacheHeld k)
  cases b with
  | false => exact ⟨_, maybeWrite_shut unprotected hb, r.noFault⟩
  | true => exact ⟨_, maybeWrite_open unprotected hb r.idle, r.noFault⟩

theorem Runnable.exec_maybeWriteOf_fault (r : Runnable s) (k : Channel) (hp : s.phase.toNat = 7 + k.val)
    (h : exec (maybeWriteOf k) s = .next u) : u.fault = none := by
  obtain ⟨u', done, clean⟩ := r.maybeWriteTarget_done hp
  rw [exec_maybeWriteOf, done, Res.outcome_done] at h
  cases h
  exact clean

/-- The phase an operation runs at is its own code. -/
theorem encodePhase_fetch (s : State) : encodePhase (fetch s) = some s.phase :=
  encodePhase_decodePhase s.phase

/-- R250: in a runnable state the operation the phase selects raises nothing. -/
theorem Runnable.exec_fetch_fault (r : Runnable s) (h : exec (fetch s) s = .next u) : u.fault = none := by
  have code := encodePhase_fetch s
  generalize fetch s = i at h code
  have toNat {p : PhaseCode} (hp : some p = some s.phase) : s.phase.toNat = p.toNat := by
    rw [Option.some.inj hp]
  cases i with
  | disableWp k =>
    rw [exec, execDisableWp, disableWp_idle r.idle, Res.outcome_done] at h
    cases h
    exact r.noFault
  | requestSample | takeSample | armTimer | takeTimer =>
    cases h
    exact r.noFault
  | bankEval =>
    obtain ⟨v, hv⟩ := Option.isSome_iff_exists.1 (r.sampleHeld (Option.some.inj code).symm)
    rw [exec, execBankEval, bankEval_done hv, Res.outcome_done] at h
    cases h
    exact r.noFault
  | maybeWrite0 => exact r.exec_maybeWriteOf_fault 0 (toNat code) h
  | maybeWrite1 => exact r.exec_maybeWriteOf_fault 1 (toNat code) h
  | maybeWrite2 => exact r.exec_maybeWriteOf_fault 2 (toNat code) h
  | maybeWrite3 => exact r.exec_maybeWriteOf_fault 3 (toNat code) h
  | reservedD =>
    have reserved := toNat code
    have legal := r.legalPhase
    simp at reserved
    omega
  | reservedEF low =>
    have reserved := toNat code
    have legal := r.legalPhase
    have high : ∀ low : BitVec 1, 12 < (0b111#3 ++ low).toNat := by decide
    have := high low
    omega
  | _ => cases code

end Sys2Proof.Machine
end

section
/-! Placing an operation (assumption 10 of the model's log): the state `withFetchWord` makes for a phase code is runnable
and its controller step is enabled, so the next step runs that operation. -/

namespace Sys2Proof.Machine

variable {s : State} {code : PhaseCode}

/-- R87: the table word of a phase code is read as the operation the code selects. -/
theorem decodeTableWord_phase (code : PhaseCode) : decodeTableWord 8 code.toNat = some (decodePhase code) := by
  rw [decodeTableWord, if_pos (by decide), if_pos code.isLt, BitVec.ofNat_toNat, BitVec.setWidth_eq]

theorem withFetchWord_phase (s : State) (code : PhaseCode) : s.withFetchWord 8 code.toNat = s.atPhase code := by
  rw [State.withFetchWord, State.selectWord, decodeTableWord_phase]
  simp only [encodePhase_decodePhase]

/-- What `readyFor` may write: the two latches, the sample, the targets and the write-protect flags. -/
theorem readyFor_frame (s : State) (code : PhaseCode) : ∃ adc tmr sample target wpDone,
    s.readyFor code = { s with adc := adc, tmr := tmr, sample := sample, target := target, wpDone := wpDone } := by
  unfold State.readyFor
  split <;> exact ⟨_, _, _, _, _, rfl⟩

theorem readyFor_write (s : State) {k : Channel} (h : code.toNat = 7 + k.val) : s.readyFor code = s.readyToWrite k := by
  unfold State.readyFor
  rw [h]
  match k with
  | 0 | 1 | 2 | 3 => rfl

theorem readyToWrite_wpDone (s : State) (k : Channel) : (s.readyToWrite k).wpDone[k] = true :=
  Vector.getElem_set_self k.isLt

theorem readyToWrite_target (s : State) (k : Channel) : ((s.readyToWrite k).target[k]).isSome = true := by
  have written : (s.readyToWrite k).target[k] = some (s.target[k].getD (laneTarget s.cfg k s.sampleInReach)) :=
    Vector.getElem_set_self k.isLt
  rw [written, Option.isSome_some]

/-- What placing an operation leaves and sets in every state. -/
theorem atPhase_fields (s : State) (code : PhaseCode) :
    (s.atPhase code).phase = code ∧ (s.atPhase code).fault = none ∧ (s.atPhase code).turns = [] ∧
    (s.atPhase code).sel = s.sel ∧ (s.atPhase code).cacheVld = s.cacheVld ∧
    (s.atPhase code).cacheVal = s.cacheVal := by
  obtain ⟨adc, tmr, sample, target, wpDone, h⟩ :=
    readyFor_frame { s with phase := code, fault := none, turns := [] } code
  rw [State.atPhase, h]
  exact ⟨rfl, rfl, rfl, rfl, rfl, rfl⟩

/-- R40: a placed operation finds what it reads written. -/
theorem Inv.runnable_atPhase (inv : Inv s) (legal : code.toNat ≤ 0xC) : Runnable (s.atPhase code) := by
  obtain ⟨phase, fault, -, sel, cacheVld, cacheVal⟩ := atPhase_fields s code
  refine ⟨fault, by rwa [phase], sel.trans inv.idle, fun h => ?_, fun k h => ?_, fun k h => ?_⟩
  · rw [phase] at h
    subst h
    rfl
  · rw [phase] at h
    rw [State.atPhase, readyFor_write _ h]
    exact ⟨readyToWrite_wpDone _ k, readyToWrite_target _ k⟩
  · simp only [cacheVld, cacheVal] at h ⊢
    exact inv.cacheHeld k h

/-- R201: a placed wait phase has its pending latch. -/
theorem atPhase_enabled (s : State) (code : PhaseCode) : (s.atPhase code).enabled = true := by
  obtain ⟨phase, fault, -⟩ := atPhase_fields s code
  rw [State.enabled_iff fault, phase]
  constructor
  · rintro rfl
    rfl
  · rintro rfl
    rfl

/-- Settles O60: the placed state is runnable and enabled, and it is the controller's turn. -/
theorem placedOperationRuns : Obligations.PlacedOperationRuns := by
  intro s code inv legal placed
  obtain ⟨phase, -, turns, -⟩ := atPhase_fields s code
  have isPlaced : placed = s.atPhase code := withFetchWord_phase s code
  rw [isPlaced]
  have selected : decodePhase code = fetch (s.atPhase code) := by rw [fetch, phase]
  obtain ⟨u, run⟩ := exec_answers_next (fetch (s.atPhase code)) (s.atPhase code)
  have clean := (inv.runnable_atPhase legal).exec_fetch_fault run
  refine ⟨u, by rwa [selected], clean, ?_⟩
  rw [step_controllerTurn (.inl ⟨turns, rfl⟩), controllerStep_enabled (atPhase_enabled s code) run, if_pos clean, phase]

end Sys2Proof.Machine
end

section
/-! The operating invariant (spec/60_exceptions.md R250 and the rules `Inv` names): each operation keeps it as the phase
moves on, each event of the environment keeps it, so every step does. -/

namespace Sys2Proof.Machine

variable {s t : State} {i : Instr}

/-! ### The successor phase -/

theorem nextPhase_legal {p : PhaseCode} (h : p.toNat ≤ 12) : (nextPhase p).toNat ≤ 12 := by
  revert p; decide

/-- R21, R23: from `SLEEP` on the phase stays above the boot phases. -/
theorem nextPhase_booted {p : PhaseCode} (h : 4 ≤ p.toNat) : 4 ≤ (nextPhase p).toNat := by
  revert p; decide

/-- R23: a boot phase leads to the next one, or to `SLEEP`, and neither is a wait. -/
theorem nextPhase_disableWp (k : Channel) :
    (BitVec.ofNat 4 k.val).toNat = k.val ∧ (nextPhase (BitVec.ofNat 4 k.val)).toNat = k.val + 1 ∧
    (BitVec.ofNat 4 k.val = phaseWaitAdc ↔ nextPhase (BitVec.ofNat 4 k.val) = phaseWaitAdc) ∧
    (BitVec.ofNat 4 k.val = phaseWaitTmr ↔ nextPhase (BitVec.ofNat 4 k.val) = phaseWaitTmr) := by
  revert k; decide

/-- R21, R207: `WRITEk` has the code 7 + k. -/
theorem encodePhase_maybeWriteOf (k : Channel) : encodePhase (maybeWriteOf k) = some (BitVec.ofNat 4 (7 + k.val)) := by
  revert k; decide

/-- R23: neither a write phase nor its successor is a wait. -/
theorem nextPhase_maybeWrite (k : Channel) :
    7 ≤ (BitVec.ofNat 4 (7 + k.val)).toNat ∧
    (BitVec.ofNat 4 (7 + k.val) = phaseWaitAdc ↔ nextPhase (BitVec.ofNat 4 (7 + k.val)) = phaseWaitAdc) ∧
    (BitVec.ofNat 4 (7 + k.val) = phaseWaitTmr ↔ nextPhase (BitVec.ofNat 4 (7 + k.val)) = phaseWaitTmr) := by
  revert k; decide

/-! ### The invariant under the parts of an operation -/

/-- Whose turn it is does not enter the invariant. -/
theorem Inv.withTurns (inv : Inv s) (turns : List Turn) : Inv { s with turns := turns } :=
  { inv with }

/-- R13: a request pulse drives no line. -/
theorem Inv.pulseAdcStart (inv : Inv s) : Inv s.pulseAdcStart :=
  { inv with
    noPulse := ⟨rfl, inv.noPulse.2⟩
    linesFollow := (linesAfter_append s.trace [.adcStart]).trans inv.linesFollow
    framed := wellFramed_append inv.framed rfl }

theorem Inv.pulseTmrArm (inv : Inv s) : Inv s.pulseTmrArm :=
  { inv with
    noPulse := ⟨inv.noPulse.1, rfl⟩
    linesFollow := (linesAfter_append s.trace [.tmrArm]).trans inv.linesFollow
    framed := wellFramed_append inv.framed rfl }

/-- R85, R142: a whole frame leaves the lines as the registers have them. -/
theorem Inv.frameSent (inv : Inv s) (k : Channel) (w : FrameWord) :
    Inv (s.afterBytes (frameEvents k w) ((frameLow w).getLsbD 0)) :=
  { inv with
    clockLow := rfl
    shifterEmpty := ⟨rfl, rfl⟩
    linesFollow := by
      rw [State.afterBytes_trace, linesAfter_append, lines_frameEvents, State.lines, State.csN, State.afterBytes_sel,
        inv.idle, State.afterBytes_sclk, State.afterBytes_sdata]
    framed := wellFramed_append inv.framed (by
      rw [← List.append_nil (frameEvents k w), framePosAfter_frame]; rfl) }

/-- R26: a written cache register holds what was written. -/
theorem Inv.cacheWrite (inv : Inv s) (k : Channel) (v : U10) : Inv (s.cacheWrite k v) :=
  { inv with
    cacheHeld := fun j valid => by
      by_cases hkj : k = j
      · subst hkj
        have written : (s.cacheWrite k v).cacheVal[k] = some v := Vector.getElem_set_self k.isLt
        rw [written, Option.isSome_some]
      · have other : k.val ≠ j.val := Fin.val_ne_of_ne hkj
        have vld : (s.cacheWrite k v).cacheVld[j] = s.cacheVld[j] := Vector.getElem_set_ne k.isLt j.isLt other
        have val : (s.cacheWrite k v).cacheVal[j] = s.cacheVal[j] := Vector.getElem_set_ne k.isLt j.isLt other
        rw [val]
        exact inv.cacheHeld j (vld.symm.trans valid) }

/-- R179: from `SLEEP` on every channel's write protect is disabled, and the successor phase asks no more. -/
theorem Inv.writeProtect_next (inv : Inv s) (booted : 4 ≤ s.phase.toNat) (k : Channel) :
    s.wpDone[k] = true ↔ k.val < (nextPhase s.phase).toNat := by
  have := nextPhase_booted booted
  exact iff_of_true ((inv.writeProtect k).2 (by omega)) (by omega)

/-- R23: from `SLEEP` on, moving the phase to its successor `q` with the latches and the sample `q` asks for. -/
theorem Inv.moved (inv : Inv s) (booted : 4 ≤ s.phase.toNat) {q : PhaseCode} (hq : nextPhase s.phase = q)
    {adc tmr : IrqLatch} {sample : Option U10} (adcEnabled : adc.ie = true ↔ q = phaseWaitAdc)
    (adcPending : adc.pend = true → adc.ie = true) (tmrEnabled : tmr.ie = true ↔ q = phaseWaitTmr)
    (tmrPending : tmr.pend = true → tmr.ie = true) (sampleHeld : 6 ≤ q.toNat → sample.isSome = true)
    (targetsHeld : 7 ≤ q.toNat → ∀ k : Channel, (s.target[k]).isSome = true) :
    Inv { s with adc := adc, tmr := tmr, sample := sample, phase := q } := by
  subst hq
  exact { inv with
    legalPhase := nextPhase_legal inv.legalPhase
    adcEnabled := adcEnabled
    adcPending := adcPending
    tmrEnabled := tmrEnabled
    tmrPending := tmrPending
    writeProtect := inv.writeProtect_next booted
    sampleHeld := sampleHeld
    targetsHeld := targetsHeld }

/-- R23: from `EVAL` on, moving the phase on where neither phase is a wait. -/
theorem Inv.advanced (inv : Inv s) (late : 6 ≤ s.phase.toNat)
    (adc : s.phase = phaseWaitAdc ↔ nextPhase s.phase = phaseWaitAdc)
    (tmr : s.phase = phaseWaitTmr ↔ nextPhase s.phase = phaseWaitTmr)
    (targetsHeld : ∀ k : Channel, (s.target[k]).isSome = true) :
    Inv { s with phase := nextPhase s.phase } :=
  inv.moved (by omega) rfl (inv.adcEnabled.trans adc) inv.adcPending (inv.tmrEnabled.trans tmr) inv.tmrPending
    (fun _ => inv.sampleHeld late) (fun _ => targetsHeld)

/-! ### The invariant after each operation -/

theorem Inv.after_disableWp (inv : Inv s) {k : Channel} (hp : s.phase = BitVec.ofNat 4 k.val) :
    Inv { s.afterBytes (frameEvents k (wpWord s.cfg)) (s.cfg.wpByte1.getLsbD 0) with
      wpDone := s.wpDone.set k true, phase := nextPhase s.phase } := by
  have last : frameLow (wpWord s.cfg) = s.cfg.wpByte1 := frameLow_wpFrameWord _ _
  have sent := inv.frameSent k (wpWord s.cfg)
  rw [last] at sent
  obtain ⟨here, next, adc, tmr⟩ := nextPhase_disableWp k
  rw [← hp] at here next adc tmr
  have early : (nextPhase s.phase).toNat ≤ 4 := by omega
  have disabled (j : Channel) : (s.wpDone.set k true)[j] = true ↔ j.val < (nextPhase s.phase).toNat := by
    by_cases hkj : k = j
    · subst hkj
      exact iff_of_true (Vector.getElem_set_self k.isLt) (by omega)
    · have other : k.val ≠ j.val := Fin.val_ne_of_ne hkj
      have kept : (s.wpDone.set k true)[j] = s.wpDone[j] := Vector.getElem_set_ne k.isLt j.isLt other
      rw [kept, inv.writeProtect j]
      omega
  exact { sent with
    legalPhase := nextPhase_legal inv.legalPhase
    adcEnabled := inv.adcEnabled.trans adc
    tmrEnabled := inv.tmrEnabled.trans tmr
    writeProtect := disabled
    sampleHeld := fun (late : 6 ≤ (nextPhase s.phase).toNat) => by omega
    targetsHeld := fun (late : 7 ≤ (nextPhase s.phase).toNat) => by omega }

theorem Inv.after_requestSample (inv : Inv s) (hp : s.phase = 0x4) :
    Inv { ({ s with adc := s.adc.arm }).pulseAdcStart with phase := phaseWaitAdc } :=
  inv.pulseAdcStart.moved (by simp [hp]) (by simp [hp, nextPhase, phaseWaitAdc])
    (adcEnabled := iff_of_true rfl rfl)
    (adcPending := fun _ => rfl)
    (tmrEnabled := inv.tmrEnabled.trans (by rw [hp]; decide))
    (tmrPending := inv.tmrPending)
    (sampleHeld := fun late => absurd late (by decide))
    (targetsHeld := fun late => absurd late (by decide))

theorem Inv.after_takeSample (inv : Inv s) (hp : s.phase = phaseWaitAdc) :
    Inv { s with adc := s.adc.take, sample := some (clampSample s.adcData), phase := 0x6 } :=
  inv.moved (by rw [hp]; decide) (by rw [hp]; rfl)
    (adcEnabled := by simp [phaseWaitAdc])
    (adcPending := id)
    (tmrEnabled := inv.tmrEnabled.trans (by rw [hp]; decide))
    (tmrPending := inv.tmrPending)
    (sampleHeld := fun _ => rfl)
    (targetsHeld := fun late => absurd late (by decide))

theorem Inv.after_armTimer (inv : Inv s) (hp : s.phase = 0xB) :
    Inv { ({ s with tmr := s.tmr.arm }).pulseTmrArm with phase := phaseWaitTmr } :=
  inv.pulseTmrArm.moved (by simp [hp]) (by simp [hp, nextPhase, phaseWaitTmr])
    (adcEnabled := inv.adcEnabled.trans (by rw [hp]; decide))
    (adcPending := inv.adcPending)
    (tmrEnabled := iff_of_true rfl rfl)
    (tmrPending := fun _ => rfl)
    (sampleHeld := fun _ => inv.sampleHeld (by rw [hp]; decide))
    (targetsHeld := fun _ => inv.targetsHeld (by rw [hp]; decide))

theorem Inv.after_takeTimer (inv : Inv s) (hp : s.phase = phaseWaitTmr) :
    Inv { s with tmr := s.tmr.take, phase := 0x4 } :=
  inv.moved (by rw [hp]; decide) (by rw [hp]; rfl)
    (adcEnabled := inv.adcEnabled.trans (by rw [hp]; decide))
    (adcPending := inv.adcPending)
    (tmrEnabled := by simp [phaseWaitTmr])
    (tmrPending := id)
    (sampleHeld := fun late => absurd late (by decide))
    (targetsHeld := fun late => absurd late (by decide))

theorem Inv.after_bankEval (inv : Inv s) (hp : s.phase = 0x6) (v0 v1 v2 v3 : U10) :
    Inv { s with target := #v[some v0, some v1, some v2, some v3], phase := nextPhase s.phase } := by
  have written (k : Channel) : ((#v[some v0, some v1, some v2, some v3] : Lanes (Option U10))[k]).isSome = true := by
    match k with
    | 0 | 1 | 2 | 3 => rfl
  have evaluated : Inv { s with target := #v[some v0, some v1, some v2, some v3] } :=
    { inv with targetsHeld := fun _ => written }
  have here : 6 ≤ s.phase.toNat := by rw [hp]; decide
  exact evaluated.advanced here (by rw [hp]; decide) (by rw [hp]; decide) written

/-- R207: a write phase, whether it skipped or wrote. -/
theorem Inv.after_write (inv : Inv s) {k : Channel} (hp : s.phase = BitVec.ofNat 4 (7 + k.val)) :
    Inv { s with phase := nextPhase s.phase } := by
  obtain ⟨late, adc, tmr⟩ := nextPhase_maybeWrite k
  rw [← hp] at late adc tmr
  exact inv.advanced (by omega) adc tmr (inv.targetsHeld late)

/-- R85, R176: a frame sent and its value cached, before the phase moves on. -/
theorem Inv.valueWritten (inv : Inv s) (k : Channel) (v : U10) :
    Inv { s.afterBytes (valueEvents s.cfg k v) ((payloadOf s.cfg v).getLsbD 0) with
      cacheVal := s.cacheVal.set k (some v)
      cacheVld := s.cacheVld.set k true } := by
  have sent := inv.frameSent k (valueFrameWord s.cfg.cmdTag (payloadOf s.cfg v))
  rw [frameLow_valueFrameWord_getLsbD_zero] at sent
  exact sent.cacheWrite k v

/-- R201: an operation that raised nothing keeps the invariant as the phase moves to its successor. -/
theorem Inv.after_effect (inv : Inv s) (effect : Effect s i t) (code : encodePhase i = some s.phase)
    (clean : t.fault = none) : Inv { t with phase := nextPhase s.phase } := by
  cases effect with
  | raised f => simp [inv.noFault] at clean
  | wpDisabled k => exact inv.after_disableWp (Option.some.inj code).symm
  | sampleRequested =>
    have hp : s.phase = 0x4 := (Option.some.inj code).symm
    have hq : nextPhase s.phase = phaseWaitAdc := by rw [hp]; rfl
    rw [hq]
    exact inv.after_requestSample hp
  | sampleTaken =>
    have hp : s.phase = phaseWaitAdc := (Option.some.inj code).symm
    have hq : nextPhase s.phase = 0x6 := by rw [hp]; rfl
    rw [hq]
    exact inv.after_takeSample hp
  | bankEvaluated v held => exact inv.after_bankEval (Option.some.inj code).symm _ _ _ _
  | writeSkipped k =>
    rw [encodePhase_maybeWriteOf] at code
    exact inv.after_write (Option.some.inj code).symm
  | valueWritten k v held =>
    rw [encodePhase_maybeWriteOf] at code
    exact (inv.valueWritten k v).after_write (Option.some.inj code).symm
  | timerArmed =>
    have hp : s.phase = 0xB := (Option.some.inj code).symm
    have hq : nextPhase s.phase = phaseWaitTmr := by rw [hp]; rfl
    rw [hq]
    exact inv.after_armTimer hp
  | timerTaken =>
    have hp : s.phase = phaseWaitTmr := (Option.some.inj code).symm
    have hq : nextPhase s.phase = 0x4 := by rw [hp]; rfl
    rw [hq]
    exact inv.after_takeTimer hp
  | _ => cases code

/-! ### The step -/

/-- R242, R243, R280: every event of the environment keeps the invariant. -/
theorem Inv.delivered (inv : Inv s) (e : EnvEvent) : Inv (deliver e s) := by
  cases e with
  | reset =>
    exact { inv_resetOf s.cfg with
      linesFollow := linesAfter_append s.trace _
      framed := wellFramed_append inv.framed rfl }
  | adcDone d =>
    exact { inv with
      adcEnabled := by rw [deliver, adcDoneEvent_adc, IrqLatch.latch_ie]; exact inv.adcEnabled
      adcPending := IrqLatch.latch_pend inv.adcPending }
  | tmrExpired =>
    exact { inv with
      tmrEnabled := by rw [deliver, tmrExpiredEvent_tmr, IrqLatch.latch_ie]; exact inv.tmrEnabled
      tmrPending := IrqLatch.latch_pend inv.tmrPending }

theorem ControllerTurn.inv {s0 : State} (turn : ControllerTurn s s0) (inv : Inv s) : Inv s0 := by
  obtain ⟨rest, rfl⟩ := turn.fields
  exact inv.withTurns rest

theorem EnvironmentTurn.inv {s0 : State} {e : EnvEvent} (turn : EnvironmentTurn s e s0) (inv : Inv s) : Inv s0 := by
  obtain ⟨rest, rfl⟩ := turn.fields
  exact inv.withTurns rest

/-- Settles O38: a suspended controller changes only whose turn it is, an enabled one runs an operation that raises
nothing and keeps the invariant, and so does every event. -/
theorem stepKeepsTheInvariant : Obligations.StepKeepsTheInvariant := by
  intro s t inv h
  rcases step_cases h with ⟨s0, turn, -, rfl⟩ | ⟨s0, u, turn, -, run, clean, rfl⟩ | ⟨s0, turn, -, run, raised⟩ |
    ⟨e, s0, turn, rfl⟩
  case inl => exact turn.inv inv
  case inr.inl => exact (turn.inv inv).after_effect (exec_effect run) (encodePhase_fetch s0) clean
  case inr.inr.inl => exact absurd ((turn.inv inv).runnable.exec_fetch_fault run) raised
  case inr.inr.inr => exact (turn.inv inv).delivered e

end Sys2Proof.Machine
end

section
/-! The clamps (spec/40_interpolator.md R111, R112): both are one clamp of an integer to [0, 1023]. -/

namespace Sys2Proof.Machine

theorem clamp10_of_neg {v : S32} (h : v.toInt < 0) : clamp10 v = 0 := by
  rw [clamp10, clampInt, if_pos h]; rfl

theorem clamp10_of_gt {v : S32} (h : 1023 < v.toInt) : clamp10 v = 1023 := by
  rw [clamp10, clampInt, if_neg (by omega), if_pos h]; rfl

theorem clamp10_of_mem {v : S32} (h0 : 0 ≤ v.toInt) (h1 : v.toInt ≤ 1023) : ((clamp10 v).toNat : Int) = v.toInt := by
  rw [clamp10, clampInt, if_neg (by omega), if_neg (by omega), BitVec.toNat_ofInt]
  omega

/-- R112: the converter's word keeps its signed value when it is extended. -/
theorem toInt_signExtend_sample (d : S16) :
    (d.signExtend 32).toInt = if d.toNat < 0x8000 then (d.toNat : Int) else d.toNat - 0x10000 := by
  rw [BitVec.toInt_signExtend_of_le (by decide), BitVec.toInt_eq_toNat_cond]
  exact if_congr (by omega) rfl rfl

/-- R112: `CLAMP_SAMPLE` is `CLAMP10` of the sign-extended word. -/
theorem clampSample_eq (d : S16) : clampSample d = clamp10 (d.signExtend 32) := rfl

theorem clampSample_of_negative {d : S16} (h : 0x8000 ≤ d.toNat) : clampSample d = 0 := by
  have bound := d.isLt
  rw [clampSample_eq, clamp10_of_neg]
  rw [toInt_signExtend_sample, if_neg (by omega)]
  omega

theorem clampSample_of_large {d : S16} (h0 : 0x400 ≤ d.toNat) (h1 : d.toNat ≤ 0x7FFF) : clampSample d = 1023 := by
  rw [clampSample_eq, clamp10_of_gt]
  rw [toInt_signExtend_sample, if_pos (by omega)]
  omega

theorem clampSample_of_small {d : S16} (h : d.toNat ≤ 0x3FF) : (clampSample d).toNat = d.toNat := by
  have value : (d.signExtend 32).toInt = d.toNat := by rw [toInt_signExtend_sample, if_pos (by omega)]
  have kept := clamp10_of_mem (v := d.signExtend 32) (by omega) (by omega)
  rw [clampSample_eq]
  omega

/-- Settles O20: the three ranges of an `s32`, and the three of a converter's word read as `s16`. -/
theorem clampsLandInTheDeviceRange : Obligations.ClampsLandInTheDeviceRange :=
  ⟨fun _ => ⟨clamp10_of_neg, clamp10_of_gt, clamp10_of_mem⟩,
    fun _ => ⟨clampSample_of_negative, clampSample_of_large, clampSample_of_small⟩⟩

end Sys2Proof.Machine
end

section
/-! Segment selection on an admissible ROM (spec/40_interpolator.md R102, R103, R107): the chosen segment brackets the scaled sample,
and as the x values strictly increase, that fixes where every control point stands. -/

namespace Sys2Proof.Machine

variable (cfg : Config) (c : CurveNo) (xs : BitVec 16) (v : U10)

theorem pointNo_succ_toNat {p : PointNo} (h : p.toNat < 7) : (p + 1).toNat = p.toNat + 1 := by
  revert p; decide

/-- R64 (b), between any two points: by induction on their distance. -/
theorem x_lt_of_lt {p q : PointNo} (h : p.toNat < q.toNat) :
    (cfg.curveRom.x c p).toNat < (cfg.curveRom.x c q).toNat := by
  obtain ⟨d, hd⟩ := Nat.exists_eq_add_of_lt h
  have bound := q.isLt
  induction d generalizing p with
  | zero =>
    have next : q = p + 1 := BitVec.eq_of_toNat_eq (by rw [pointNo_succ_toNat (by omega), hd])
    rw [next]
    exact x_lt_next cfg c p (by omega)
  | succ d ih =>
    have next := pointNo_succ_toNat (p := p) (by omega)
    calc (cfg.curveRom.x c p).toNat
        < (cfg.curveRom.x c (p + 1)).toNat := x_lt_next cfg c p (by omega)
      _ < (cfg.curveRom.x c q).toNat := ih (by omega) (by omega)

theorem x_le_of_le {p q : PointNo} (h : p.toNat ≤ q.toNat) :
    (cfg.curveRom.x c p).toNat ≤ (cfg.curveRom.x c q).toNat := by
  rcases Nat.lt_or_eq_of_le h with lt | eq
  · exact (x_lt_of_lt cfg c lt).le
  · rw [BitVec.eq_of_toNat_eq eq]

theorem toNat_lt_of_x_lt {p q : PointNo} (h : (cfg.curveRom.x c p).toNat < (cfg.curveRom.x c q).toNat) :
    p.toNat < q.toNat :=
  Nat.lt_of_not_le fun le => absurd (x_le_of_le cfg c le) (Nat.not_le_of_lt h)

/-- R102: the scaled sample lies above the lower end of its segment, but for segment 0, and not above the upper end, but for
segment 6. -/
theorem segmentIndex_brackets :
    (segmentIndex cfg.curveRom c xs = 0 ∨ (cfg.curveRom.x c (segmentIndex cfg.curveRom c xs)).toNat < xs.toNat) ∧
    (segmentIndex cfg.curveRom c xs = 6 ∨ xs.toNat ≤ (cfg.curveRom.x c (segmentIndex cfg.curveRom c xs + 1)).toNat) := by
  rcases segmentIndex_cases cfg c xs with ⟨hi, i⟩ | ⟨lo, hi, i⟩ | ⟨lo, hi, i⟩ | ⟨lo, hi, i⟩ | ⟨lo, hi, i⟩ | ⟨lo, hi, i⟩ |
    ⟨lo, i⟩
  · rw [i]; exact ⟨.inl rfl, .inr hi⟩
  iterate 5 rw [i]; exact ⟨.inr lo, .inr hi⟩
  · rw [i]; exact ⟨.inr lo, .inl rfl⟩

/-- R103: the interior points below the scaled sample are those of 1..6 up to the index. -/
theorem x_lt_iff_le_segmentIndex {k : PointNo} (lower : 1 ≤ k.toNat) (upper : k.toNat ≤ 6) :
    (cfg.curveRom.x c k).toNat < xs.toNat ↔ k.toNat ≤ (segmentIndex cfg.curveRom c xs).toNat := by
  obtain ⟨above, below⟩ := segmentIndex_brackets cfg c xs
  have le6 := segmentIndex_le cfg c xs
  generalize segmentIndex cfg.curveRom c xs = i at *
  constructor
  · intro hk
    rcases below with rfl | below
    · exact upper
    · have := toNat_lt_of_x_lt cfg c (hk.trans_le below)
      rw [pointNo_succ_toNat (by omega)] at this
      omega
  · intro hk
    rcases above with rfl | above
    · exact absurd (lower.trans hk) (by decide)
    · exact (x_le_of_le cfg c hk).trans_lt above

/-- Settles O44: each comparison of the search asks whether its point is one up to the index. -/
theorem searchAgreesWithTheCount : Obligations.SearchAgreesWithTheCount := by
  intro cfg c xs
  have le6 := segmentIndex_le cfg c xs
  simp (disch := decide) only [segmentSearch, x_lt_iff_le_segmentIndex]
  generalize segmentIndex cfg.curveRom c xs = i at *
  revert i; decide

/-- R107 (a) to (c): a scaled sample on a control point is at its segment's upper end, or is the curve's first point. -/
theorem segmentIndex_of_controlPoint {k : PointNo} (h : (cfg.curveRom.x c k).toNat = xs.toNat) :
    k.toNat = (segmentIndex cfg.curveRom c xs).toNat + 1 ∨ (k = 0 ∧ segmentIndex cfg.curveRom c xs = 0) := by
  obtain ⟨above, below⟩ := segmentIndex_brackets cfg c xs
  have le6 := segmentIndex_le cfg c xs
  generalize segmentIndex cfg.curveRom c xs = i at *
  have upper : k.toNat ≤ i.toNat + 1 := by
    rcases below with rfl | below
    · exact Nat.le_of_lt_succ k.isLt
    · by_contra gt
      have := x_lt_of_lt cfg c (p := i + 1) (q := k) (by rw [pointNo_succ_toNat (by omega)]; omega)
      omega
  rcases above with rfl | above
  · rcases Nat.eq_zero_or_pos k.toNat with first | pos
    · exact .inr ⟨BitVec.eq_of_toNat_eq first, rfl⟩
    · exact .inl (Nat.le_antisymm upper pos)
  · have := toNat_lt_of_x_lt cfg c (above.trans_eq h.symm)
    exact .inl (by omega)

/-- R102, R107 (f): where the scaled sample lies, the ends of the x axis apart. -/
theorem segmentIndex_contains :
    ((cfg.curveRom.x c (segmentIndex cfg.curveRom c xs)).toNat < xs.toNat ∧
      xs.toNat ≤ (cfg.curveRom.x c (segmentIndex cfg.curveRom c xs + 1)).toNat) ∨
    (xs.toNat = 0 ∧ segmentIndex cfg.curveRom c xs = 0) ∨
    (segmentIndex cfg.curveRom c xs = 6 ∧ (cfg.curveRom.x c 7).toNat < xs.toNat) := by
  obtain ⟨above, below⟩ := segmentIndex_brackets cfg c xs
  generalize segmentIndex cfg.curveRom c xs = i at *
  have first := x_zero cfg c
  rcases Nat.eq_zero_or_pos xs.toNat with zero | pos
  · refine .inr (.inl ⟨zero, ?_⟩)
    rcases above with rfl | above
    · rfl
    · omega
  · have lower : (cfg.curveRom.x c i).toNat < xs.toNat := by
      rcases above with rfl | above
      · omega
      · exact above
    rcases below with rfl | below
    · rcases Nat.lt_or_ge (cfg.curveRom.x c 7).toNat xs.toNat with beyond | within
      · exact .inr (.inr ⟨rfl, beyond⟩)
      · exact .inl ⟨lower, within⟩
    · exact .inl ⟨lower, below⟩

/-- Settles O43: the index by the bracket around the scaled sample, the tie-break by what a control point fixes. -/
theorem segmentHoldsTheScaledSample : Obligations.SegmentHoldsTheScaledSample := by
  intro cfg c v
  have scaled := scaleSample_toNat v
  refine ⟨scaled, (exactIndex_eq _ c v).symm, segmentIndex_le cfg c _, ?_, ?_⟩
  · intro k lower _ tie
    rcases segmentIndex_of_controlPoint cfg c (scaleSample v) (tie.trans scaled.symm) with next | ⟨rfl, -⟩
    · omega
    · exact absurd lower (by decide)
  · rcases segmentIndex_contains cfg c (scaleSample v) with inside | ⟨zero, first⟩ | beyond
    · exact .inl (scaled ▸ inside)
    · exact .inr (.inl ⟨BitVec.eq_of_toNat_eq (show v.toNat = 0 by omega), first⟩)
    · exact .inr (.inr (scaled ▸ beyond))

end Sys2Proof.Machine
end

section
/-! The formula of spec/40_interpolator.md R100 on the integers: the bounds of its intermediates (R104), and where the interpolated
value lies in its segment (R107 to R109). -/

namespace Sys2Proof.Machine

variable (cfg : Config) (c : CurveNo) (v : U10)

/-! ### The intermediates -/

theorem exactIndex_le : (exactIndex cfg.curveRom c v).toNat ≤ 6 :=
  exactIndex_eq cfg.curveRom c v ▸ segmentIndex_le cfg c (scaleSample v)

theorem exactXs_eq : exactXs v = (scaleSample v).toNat := by
  rw [scaleSample_toNat, exactXs]; push_cast; rfl

theorem exactXs_le : exactXs v ≤ 32736 := by
  have := v.isLt
  unfold exactXs; omega

theorem exactX_nonneg (rom : CurveRom) (p : PointNo) : 0 ≤ exactX rom c p := Int.natCast_nonneg _

theorem exactY_mem (p : PointNo) : 0 ≤ exactY cfg.curveRom c p ∧ exactY cfg.curveRom c p ≤ 32767 :=
  ⟨Int.natCast_nonneg _, Int.ofNat_le.2 (y_le cfg c p)⟩

theorem exactT_nonneg : 0 ≤ exactT cfg.curveRom c v := by
  obtain ⟨above, -⟩ := segmentIndex_brackets cfg c (scaleSample v)
  rw [exactT, exactXs_eq, exactIndex_eq]
  refine sub_nonneg.2 (Int.ofNat_le.2 ?_)
  rcases above with first | above
  · rw [first, x_zero]; exact Nat.zero_le _
  · exact above.le

theorem exactT_le : exactT cfg.curveRom c v ≤ 32736 := by
  have := exactXs_le v
  have := exactX_nonneg c cfg.curveRom (exactIndex cfg.curveRom c v)
  unfold exactT; omega

/-- R107 (f): only with `X_MAX` below 32736 does a sample lie beyond its segment. -/
theorem exactT_le_exactDx (xMax : 32736 ≤ cfg.xMax.toNat) : exactT cfg.curveRom c v ≤ exactDx cfg.curveRom c v := by
  obtain ⟨-, below⟩ := segmentIndex_brackets cfg c (scaleSample v)
  have last := x_last cfg c
  have := exactXs_le v
  rw [exactXs_eq] at this
  rw [exactT, exactDx, exactXs_eq, exactIndex_eq]
  refine sub_le_sub_right (Int.ofNat_le.2 ?_) _
  rcases below with i | below
  · rw [i]
    exact show _ ≤ (cfg.curveRom.x c 7).toNat by omega
  · exact below

theorem exactDx_pos : 0 < exactDx cfg.curveRom c v :=
  sub_pos.2 (Int.ofNat_lt.2 (x_lt_next cfg c _ (exactIndex_le cfg c v)))

theorem abs_exactDy_le : |exactDy cfg.curveRom c v| ≤ 32767 := by
  obtain ⟨low0, high0⟩ := exactY_mem cfg c (exactIndex cfg.curveRom c v)
  obtain ⟨low1, high1⟩ := exactY_mem cfg c (exactIndex cfg.curveRom c v + 1)
  rw [exactDy, abs_le]
  omega

theorem abs_exactP_le : |exactP cfg.curveRom c v| ≤ 1072660512 := by
  have t : |exactT cfg.curveRom c v| ≤ 32736 := abs_le.2 ⟨by have := exactT_nonneg cfg c v; omega, exactT_le cfg c v⟩
  calc |exactP cfg.curveRom c v|
      = |exactDy cfg.curveRom c v| * |exactT cfg.curveRom c v| := abs_mul _ _
    _ ≤ 32767 * 32736 := mul_le_mul (abs_exactDy_le cfg c v) t (abs_nonneg _) (by decide)
    _ = 1072660512 := rfl

theorem abs_exactDelta_le : |exactDelta cfg.curveRom c v| ≤ 1072660512 :=
  calc |exactDelta cfg.curveRom c v|
      ≤ |exactP cfg.curveRom c v| := by
        rw [Int.abs_eq_natAbs, Int.abs_eq_natAbs]
        exact Int.ofNat_le.2 (Int.natAbs_tdiv_le_natAbs _ _)
    _ ≤ 1072660512 := abs_exactP_le cfg c v

theorem abs_exactR_le : |exactR cfg.curveRom c v| ≤ 1072693279 := by
  obtain ⟨low, high⟩ := exactY_mem cfg c (exactIndex cfg.curveRom c v)
  obtain ⟨hlow, hhigh⟩ := abs_le.1 (abs_exactDelta_le cfg c v)
  rw [exactR, abs_le]
  omega

/-- R106: `r5 = floor(r / 32)`, as the Euclidean quotient. -/
theorem exactInterp_eq (rom : CurveRom) : exactInterp rom c v = exactR rom c v / 32 :=
  Int.fdiv_eq_ediv_of_nonneg _ (by decide)

/-! ### Monotone in the sample -/

/-- R109: the truncated quotient of a product grows with one factor where the other is not negative. -/
theorem mul_tdiv_le_mul_tdiv {dy t t' dx : Int} (hdx : 0 < dx) (hdy : 0 ≤ dy) (ht : t ≤ t') :
    (dy * t).tdiv dx ≤ (dy * t').tdiv dx :=
  Int.tdiv_le_tdiv hdx (mul_le_mul_of_nonneg_left ht hdy)

theorem mul_tdiv_le_mul_tdiv_of_nonpos {dy t t' dx : Int} (hdx : 0 < dx) (hdy : dy ≤ 0) (ht : t ≤ t') :
    (dy * t').tdiv dx ≤ (dy * t).tdiv dx :=
  Int.tdiv_le_tdiv hdx (mul_le_mul_of_nonpos_left ht hdy)

/-- Settles O46: two samples of one segment differ in `t` only, and the quotient and the shift are monotone. -/
theorem interpolationIsMonotoneInASegment : Obligations.InterpolationIsMonotoneInASegment := by
  intro cfg c v v' le same
  have t : exactXs v - exactX cfg.curveRom c (exactIndex cfg.curveRom c v') ≤
      exactXs v' - exactX cfg.curveRom c (exactIndex cfg.curveRom c v') := by
    unfold exactXs; omega
  have dx := exactDx_pos cfg c v'
  simp only [exactInterp_eq, exactR, exactDelta, exactP, exactT, exactDx, exactDy, same] at dx ⊢
  exact ⟨fun dy => Int.ediv_le_ediv (by decide) (add_le_add_right (mul_tdiv_le_mul_tdiv dx dy t) _),
    fun dy => Int.ediv_le_ediv (by decide) (add_le_add_right (mul_tdiv_le_mul_tdiv_of_nonpos dx dy t) _)⟩

/-! ### Control points and range -/

theorem exactR_of_t_zero {rom : CurveRom} (t : exactT rom c v = 0) :
    exactR rom c v = exactY rom c (exactIndex rom c v) := by
  rw [exactR, exactDelta, exactP, t, mul_zero, Int.zero_tdiv, add_zero]

theorem exactR_of_t_eq_dx (t : exactT cfg.curveRom c v = exactDx cfg.curveRom c v) :
    exactR cfg.curveRom c v = exactY cfg.curveRom c (exactIndex cfg.curveRom c v + 1) := by
  rw [exactR, exactDelta, exactP, t, Int.mul_tdiv_cancel _ (exactDx_pos cfg c v).ne', exactDy, add_sub_cancel]

/-- Settles O47: on a control point `t` is `dx`, and `r` the segment's upper end, or both are 0 at the first point. -/
theorem interpolationMeetsItsControlPoints : Obligations.InterpolationMeetsItsControlPoints := by
  intro cfg c v k h
  have onPoint : (cfg.curveRom.x c k).toNat = (scaleSample v).toNat := by
    rw [exactXs_eq] at h; exact (Int.ofNat_inj.1 h).symm
  have at_k := segmentIndex_of_controlPoint cfg c _ onPoint
  rw [← exactIndex_eq] at at_k
  rw [exactInterp]
  rcases at_k with upper | ⟨first, i⟩
  · have next : exactIndex cfg.curveRom c v + 1 = k :=
      BitVec.eq_of_toNat_eq (by rw [pointNo_succ_toNat (by have := exactIndex_le cfg c v; omega), upper])
    rw [exactR_of_t_eq_dx cfg c v (by rw [exactT, exactDx, next, h]), next]
  · rw [exactR_of_t_zero c v (by rw [exactT, i, h, first, sub_self]), i, first]

/-- R108: inside its segment `delta` lies between 0 and `dy`, so `r` between the segment's two y values. -/
theorem exactR_mem_segment (t : exactT cfg.curveRom c v ≤ exactDx cfg.curveRom c v) :
    exactR cfg.curveRom c v ∈ Set.uIcc (exactY cfg.curveRom c (exactIndex cfg.curveRom c v))
      (exactY cfg.curveRom c (exactIndex cfg.curveRom c v + 1)) := by
  have dx := exactDx_pos cfg c v
  have t0 := exactT_nonneg cfg c v
  have start : (exactDy cfg.curveRom c v * 0).tdiv (exactDx cfg.curveRom c v) = 0 := by rw [mul_zero, Int.zero_tdiv]
  have finish := Int.mul_tdiv_cancel (exactDy cfg.curveRom c v) dx.ne'
  have step : exactDy cfg.curveRom c v = exactY cfg.curveRom c (exactIndex cfg.curveRom c v + 1) -
    exactY cfg.curveRom c (exactIndex cfg.curveRom c v) := rfl
  rw [Set.mem_uIcc, exactR, exactDelta, exactP]
  rcases le_total 0 (exactDy cfg.curveRom c v) with rising | falling
  · have low := mul_tdiv_le_mul_tdiv dx rising t0
    have high := mul_tdiv_le_mul_tdiv dx rising t
    left; omega
  · have high := mul_tdiv_le_mul_tdiv_of_nonpos dx falling t0
    have low := mul_tdiv_le_mul_tdiv_of_nonpos dx falling t
    right; omega

/-- Settles O45: `r` lies between two y values, and those in [0, 32767]. -/
theorem interpolationStaysInRange : Obligations.InterpolationStaysInRange := by
  intro cfg c v xMax
  have between := exactR_mem_segment cfg c v (exactT_le_exactDx cfg c v xMax)
  have y0 := exactY_mem cfg c (exactIndex cfg.curveRom c v)
  have y1 := exactY_mem cfg c (exactIndex cfg.curveRom c v + 1)
  rw [Set.mem_uIcc] at between
  rw [exactInterp_eq]
  omega

end Sys2Proof.Machine
end

section
/-! The 32-bit datapath of spec/40_interpolator.md R100 holds the integers of its formula (R104, R115), so the operations that run it
return them (R113). -/

namespace Sys2Proof.Machine

/-! ### Signed values of 32-bit results -/

theorem bmod_of_abs_lt {z : Int} (h : |z| < 2147483648) : z.bmod (2 ^ 32) = z := by
  obtain ⟨low, high⟩ := abs_lt.1 h
  exact Int.bmod_eq_of_le (by omega) (by omega)

/-- R62: a ROM word, zero-extended, is the number it holds. -/
theorem toInt_zeroExtend_word (w : BitVec 16) : (w.zeroExtend 32).toInt = w.toNat := by
  have := w.isLt
  rw [BitVec.zeroExtend_eq_setWidth, BitVec.toInt_setWidth, bmod_of_abs_lt (abs_lt.2 (by omega))]

/-- R104: the difference of two 16-bit words never leaves `s32`. -/
theorem toInt_sub_words (a b : BitVec 16) : (a.zeroExtend 32 - b.zeroExtend 32).toInt = (a.toNat : Int) - b.toNat := by
  have := a.isLt
  have := b.isLt
  rw [BitVec.toInt_sub, toInt_zeroExtend_word, toInt_zeroExtend_word, bmod_of_abs_lt (abs_lt.2 (by omega))]

/-! ### The intermediates -/

section AnyRom

variable (rom : CurveRom) (c : CurveNo) (v : U10)

theorem evalSegment_i : (evalSegment rom c v).i = exactIndex rom c v :=
  (exactIndex_eq rom c v).symm

theorem evalSegment_t_toInt : (evalSegment rom c v).t.toInt = exactT rom c v := by
  rw [exactT, exactXs_eq, exactIndex_eq]
  exact toInt_sub_words _ _

theorem evalSegment_dx_toInt : (evalSegment rom c v).dx.toInt = exactDx rom c v := by
  rw [exactDx, exactIndex_eq]
  exact toInt_sub_words _ _

theorem evalSegment_dy_toInt : (evalSegment rom c v).dy.toInt = exactDy rom c v := by
  rw [exactDy, exactIndex_eq]
  exact toInt_sub_words _ _

/-- R100: on any ROM, a segment without width raises. -/
theorem interp_of_dx_zero (h : exactDx rom c v = 0) : interp rom c v = .error (.romDx0 c (exactIndex rom c v)) := by
  have zero : (evalSegment rom c v).dx = 0#32 := BitVec.eq_of_toInt_eq (by rw [evalSegment_dx_toInt, h]; rfl)
  rw [← evalSegment_i]
  exact if_pos zero

end AnyRom

variable (cfg : Config) (c : CurveNo) (v : U10)

theorem evalSegment_p_toInt : (evalSegment cfg.curveRom c v).p.toInt = exactP cfg.curveRom c v := by
  have product : (evalSegment cfg.curveRom c v).p =
    (evalSegment cfg.curveRom c v).dy * (evalSegment cfg.curveRom c v).t := rfl
  rw [product, BitVec.toInt_mul, evalSegment_dy_toInt, evalSegment_t_toInt]
  exact bmod_of_abs_lt ((abs_exactP_le cfg c v).trans_lt (by decide))

theorem evalSegment_delta_toInt : (evalSegment cfg.curveRom c v).delta.toInt = exactDelta cfg.curveRom c v := by
  have quotient : (evalSegment cfg.curveRom c v).delta =
    (evalSegment cfg.curveRom c v).p.sdiv (evalSegment cfg.curveRom c v).dx := rfl
  rw [quotient, BitVec.toInt_sdiv, evalSegment_p_toInt, evalSegment_dx_toInt]
  exact bmod_of_abs_lt ((abs_exactDelta_le cfg c v).trans_lt (by decide))

theorem evalSegment_r_toInt : (evalSegment cfg.curveRom c v).r.toInt = exactR cfg.curveRom c v := by
  have sum : (evalSegment cfg.curveRom c v).r =
    (cfg.curveRom.y c (evalSegment cfg.curveRom c v).i).zeroExtend 32 + (evalSegment cfg.curveRom c v).delta := rfl
  rw [sum, BitVec.toInt_add, toInt_zeroExtend_word, evalSegment_delta_toInt, evalSegment_i]
  exact bmod_of_abs_lt ((abs_exactR_le cfg c v).trans_lt (by decide))

/-- Settles O19: each intermediate holds its integer, as that is within its bound. -/
theorem interpNeverOverflows : Obligations.InterpNeverOverflows := fun cfg c v =>
  ⟨evalSegment_t_toInt _ c v, evalSegment_dx_toInt _ c v, evalSegment_dy_toInt _ c v, evalSegment_p_toInt cfg c v,
    evalSegment_delta_toInt cfg c v, evalSegment_r_toInt cfg c v, exactT_nonneg cfg c v, exactT_le cfg c v,
    exactDx_pos cfg c v, abs_exactDy_le cfg c v, abs_exactP_le cfg c v, abs_exactDelta_le cfg c v, abs_exactR_le cfg c v⟩

/-! ### The result -/

/-- R106: the arithmetic shift is the floor of the quotient by 32. -/
theorem evalSegment_result_toInt :
    ((evalSegment cfg.curveRom c v).r.sshiftRight 5).toInt = exactInterp cfg.curveRom c v := by
  rw [BitVec.toInt_sshiftRight, evalSegment_r_toInt, Int.shiftRight_eq_div_pow, exactInterp_eq]
  rfl

/-- Settles O18: on an admissible ROM by the exactness of the datapath, without a segment's width by the raise. -/
theorem interpDatapathIsExact : Obligations.InterpDatapathIsExact :=
  ⟨fun cfg c v => ⟨_, interp_ok cfg c v, evalSegment_result_toInt cfg c v⟩, interp_of_dx_zero⟩

/-- Settles O21: `INTERP` meets no raise on the state's own ROM, and the clamps have none. -/
theorem pureOperationsReturnTheirResult : Obligations.PureOperationsReturnTheirResult := by
  intro s
  refine ⟨fun c v => ⟨_, evalSegment_result_toInt s.cfg c v, ?_⟩, fun v => rfl, fun d => rfl⟩
  rw [exec, execInterp, interp_ok, Res.withValue_ok, Res.outcome_done, State.withResult]

theorem laneTarget_eq_exactTarget (k : Channel) : laneTarget cfg k v = exactTarget cfg k v := by
  rw [laneTarget, clamp10, evalSegment_result_toInt, exactTarget]

/-- Settles O22: with a sample the four lanes finish with the exact targets, without one the read raises. -/
theorem bankEvalWritesTheFourTargets : Obligations.BankEvalWritesTheFourTargets := by
  intro s
  refine ⟨fun v held => ?_, fun unheld => ?_⟩
  · rw [exec, execBankEval, bankEval_done held, Res.outcome_done]
    simp only [laneTarget_eq_exactTarget]
  · rw [exec, execBankEval, bankEval_unwritten unheld, Res.outcome_raised]

end Sys2Proof.Machine
end

section
/-! What the transmitter's operations send (spec/41_serial_bus.md): a byte as its eight cells (R140), a filter value as the two
bytes of its payload (R147 to R149), the two constants (R150), or the fault of R151. -/

namespace Sys2Proof.Machine

/-! ### A byte -/

/-- R66, R84: a byte's cells count its bits down from bit 7. -/
theorem byteEvents_eq_cells (b : Byte) :
    byteEvents b =
      ([7, 6, 5, 4, 3, 2, 1, 0] : List Nat).flatMap fun j => [.dat (b.getLsbD j), .clk true, .clk false] := rfl

/-- Settles O23: with a channel selected the byte's cells go out, with none the byte raises. -/
theorem sendByteShiftsEightCells : Obligations.SendByteShiftsEightCells := by
  intro b s
  refine ⟨fun k selected => ?_, fun unselected => ?_, byteEvents_eq_cells b⟩
  · rw [exec, execSendByte, sendByte_selected selected, Res.outcome_done]
  · rw [exec, execSendByte, sendByte_unselected unselected, Res.outcome_raised]

/-! ### A filter value -/

variable {cfg : Config}

theorem payloadOf_inverted (h : cfg.invert = true) (v : U10) : payloadOf cfg v = 1023#10 - v :=
  if_pos h

theorem payloadOf_plain (h : cfg.invert = false) (v : U10) : payloadOf cfg v = v :=
  if_neg (by simp [h])

/-- R148: no value exceeds 1023, so the inversion never borrows. -/
theorem payloadOf_inverted_toNat (h : cfg.invert = true) (v : U10) : (payloadOf cfg v).toNat = 1023 - v.toNat := by
  have inRange : v ≤ 1023#10 := Nat.le_of_lt_succ v.isLt
  rw [payloadOf_inverted h]
  exact BitVec.toNat_sub_of_le inRange

/-- R148: under either setting of `INVERT` the payload of the payload is the value again. -/
theorem payloadOf_involutive (cfg : Config) : Function.Involutive (payloadOf cfg) := by
  intro v
  cases h : cfg.invert with
  | false => rw [payloadOf_plain h, payloadOf_plain h]
  | true => rw [payloadOf_inverted h, payloadOf_inverted h, sub_sub_cancel]

/-- R149: a value frame is its two bytes. -/
theorem wordEvents_valueFrameWord (cfg : Config) (payload : U10) :
    wordEvents (valueFrameWord cfg.cmdTag payload) =
      byteEvents (valueByteHigh cfg payload) ++ byteEvents (valueByteLow payload) := by
  rw [wordEvents, ← valueByteHigh_eq, ← valueByteLow_eq]

/-- Settles O24: the value frame's two bytes or the raise, and the payload by its two settings. -/
theorem sendFilterValueSendsTwoBytes : Obligations.SendFilterValueSendsTwoBytes := by
  intro v s payload
  refine ⟨fun k selected => ?_, fun unselected => ?_, fun inverted => payloadOf_inverted_toNat inverted v,
    fun plain => payloadOf_plain plain v, fun v' same => (payloadOf_involutive s.cfg).injective same⟩
  · rw [exec, execSendFilterValue, sendFilterValue_selected selected, Res.outcome_done, wordEvents_valueFrameWord,
      valueByteHigh, valueByteLow]
  · rw [exec, execSendFilterValue, sendFilterValue_unselected unselected, Res.outcome_raised]

/-! ### The constants -/

/-- Settles O25: the WP frame's two bytes are the constants; with no channel selected none goes out. -/
theorem sendWpSendsTheConstants : Obligations.SendWpSendsTheConstants := by
  intro s
  refine ⟨fun k selected => ?_, fun unselected => ?_⟩
  · rw [exec, execSendWp, sendWp_selected selected, Res.outcome_done, wpWord, wordEvents_wpFrameWord]
  · rw [exec, execSendWp, sendWp_unselected unselected, Res.outcome_raised]

end Sys2Proof.Machine
end

section
/-! The channels (spec/42_chip_select.md): selecting and deselecting (R170, R171), a channel's write-protect frame (R178), and
what a channel writes, when, and on which data (R174 to R177, R182). -/

namespace Sys2Proof.Machine

/-! ### The chip-select lines and the write-protect frame -/

/-- Settles O27: the two endings of `SELECT`, the one of `DESELECT`, and the mask of R89. -/
theorem selectOnlyFromIdle : Obligations.SelectOnlyFromIdle := by
  intro k s
  refine ⟨fun idle => ?_, fun j busy => ?_, ?_, csMask_some_getLsbD k⟩
  · rw [exec, execSelect, select_idle idle, Res.outcome_done]
  · rw [exec, execSelect, select_busy busy, Res.outcome_raised]
  · rw [exec, execDeselect, deselect_eq, Res.outcome_done]
    rfl

/-- Settles O29: the frame and `wp_done[k]` from idle, the overlap from a selection. -/
theorem disableWpSendsItsFrame : Obligations.DisableWpSendsItsFrame := by
  intro k s
  refine ⟨fun idle => ?_, fun j busy => ?_⟩
  · rw [exec, execDisableWp, disableWp_idle idle, Res.outcome_done]
  · rw [exec, execDisableWp, disableWp_busy busy, Res.outcome_raised]

/-! ### The gate -/

variable {s s' t : State} {k : Channel} {v : U10}

theorem exec_maybeWriteOf_held (held : s.target[k] = some v) :
    exec (maybeWriteOf k) s = (maybeWrite k v s).outcome := by
  rw [exec_maybeWriteOf, maybeWriteTarget_some held]

theorem exec_maybeWriteOf_shut (held : s.target[k] = some v) (unprotected : s.wpDone[k] = true)
    (shut : GateShut s k v) : exec (maybeWriteOf k) s = .next s := by
  rw [exec_maybeWriteOf_held held, maybeWrite_shut unprotected (changed_shut shut), Res.outcome_done]

/-- Settles O30: the write protect is looked at first, then the gate, then the selection. -/
theorem maybeWriteFollowsTheGate : Obligations.MaybeWriteFollowsTheGate := by
  intro k v s held
  refine ⟨fun isProtected => ?_, exec_maybeWriteOf_shut held, fun unprotected isOpen idle => ?_,
    fun unprotected isOpen j busy => ?_⟩
  · rw [exec_maybeWriteOf_held held, maybeWrite_unprotected v isProtected, Res.outcome_raised]
  · rw [exec_maybeWriteOf_held held, maybeWrite_open unprotected (changed_open isOpen) idle, Res.outcome_done]
  · rw [exec_maybeWriteOf_held held, maybeWrite_busy unprotected (changed_open isOpen) busy, Res.outcome_raised]

/-! ### A repeated write -/

theorem cacheWrite_cacheVld_self (s : State) (k : Channel) (v : U10) : (s.cacheWrite k v).cacheVld[k] = true :=
  Vector.getElem_set_self k.isLt

theorem cacheWrite_cacheVal_self (s : State) (k : Channel) (v : U10) : (s.cacheWrite k v).cacheVal[k] = some v :=
  Vector.getElem_set_self k.isLt

/-- R175, R176: a cached value shuts its own gate, unless `ALWAYS_WRITE` holds it open. -/
theorem gateShut_cacheWrite (gated : s.cfg.alwaysWrite = false) : GateShut (s.cacheWrite k v) k v :=
  ⟨gated, cacheWrite_cacheVld_self s k v, cacheWrite_cacheVal_self s k v⟩

/-- Settles O54: the first call leaves the state as it is or caches the target, and either way the second finds the gate shut. -/
theorem repeatedWriteIsIdempotent : Obligations.RepeatedWriteIsIdempotent := by
  intro k s t inv late gated first
  obtain ⟨v, held⟩ := Option.isSome_iff_exists.1 (inv.targetsHeld late k)
  have unprotected : s.wpDone[k] = true := (inv.writeProtect k).2 (by omega)
  obtain ⟨isChanged, gate⟩ := changed_ok v (inv.cacheHeld k)
  have ending := first
  rw [exec_maybeWriteOf_held held] at ending
  cases isChanged with
  | false =>
    rw [maybeWrite_shut unprotected gate, Res.outcome_done] at ending
    cases ending
    exact first
  | true =>
    rw [maybeWrite_open unprotected gate inv.idle, Res.outcome_done] at ending
    cases ending
    exact exec_maybeWriteOf_shut held unprotected (gateShut_cacheWrite gated)

/-! ### A channel's own data -/

/-- R174: `MAYBE_WRITE(k, target[k])` writes `v`: nothing stops it and the gate is open. -/
structure State.Writes (s : State) (k : Channel) (v : U10) : Prop where
  held        : s.target[k] = some v
  unprotected : s.wpDone[k] = true
  isChanged   : s.changed k v = .ok true
  idle        : s.sel = none

theorem State.Writes.exec_maybeWriteOf (w : s.Writes k v) : exec (maybeWriteOf k) s =
    .next ((s.afterBytes (valueEvents s.cfg k v) ((payloadOf s.cfg v).getLsbD 0)).cacheWrite k v) := by
  rw [exec_maybeWriteOf_held w.held, maybeWrite_open w.unprotected w.isChanged w.idle, Res.outcome_done]
  rfl

/-- R174, R250: where `MAYBE_WRITE` writes nothing, shut or raised, it emits nothing and leaves every cache alone. -/
theorem exec_maybeWriteOf_unwritten (unwritten : ∀ v, ¬ s.Writes k v) (run : exec (maybeWriteOf k) s = .next t) :
    t.trace = s.trace ∧ t.cacheVld = s.cacheVld ∧ t.cacheVal = s.cacheVal := by
  rw [exec_maybeWriteOf] at run
  rcases maybeWriteTarget_cases k s with ⟨f, raised⟩ | skipped | ⟨v, held, unprotected, isChanged, idle, -⟩
  · rw [raised, Res.outcome_raised] at run
    cases run
    exact ⟨rfl, rfl, rfl⟩
  · rw [skipped, Res.outcome_done] at run
    cases run
    exact ⟨rfl, rfl, rfl⟩
  · exact absurd ⟨held, unprotected, isChanged, idle⟩ (unwritten v)

theorem changed_congr (cfg : s.cfg = s'.cfg) (vld : s.cacheVld[k] = s'.cacheVld[k])
    (val : s.cacheVal[k] = s'.cacheVal[k]) (v : U10) : s.changed k v = s'.changed k v := by
  rw [State.changed, State.changed, cfg, vld, val]

/-- R182: whether and what a channel writes is read off the configuration, the selection and its own data. -/
theorem writes_congr (cfg : s.cfg = s'.cfg) (target : s.target[k] = s'.target[k]) (wpDone : s.wpDone[k] = s'.wpDone[k])
    (vld : s.cacheVld[k] = s'.cacheVld[k]) (val : s.cacheVal[k] = s'.cacheVal[k]) (sel : s.sel = s'.sel) (v : U10) :
    s.Writes k v ↔ s'.Writes k v := by
  have gate := changed_congr cfg vld val v
  constructor
  · rintro ⟨held, unprotected, isChanged, idle⟩
    exact ⟨target.symm.trans held, wpDone.symm.trans unprotected, gate.symm.trans isChanged, sel.symm.trans idle⟩
  · rintro ⟨held, unprotected, isChanged, idle⟩
    exact ⟨target.trans held, wpDone.trans unprotected, gate.trans isChanged, sel.trans idle⟩

theorem maybeWriteOf_injective : Function.Injective maybeWriteOf := by
  unfold Function.Injective
  decide

/-- Settles O55: both states write the same value or neither writes. -/
theorem channelsWriteIndependently : Obligations.ChannelsWriteIndependently := by
  intro k s s' t t' cfg target wpDone vld val sel run run'
  have alike (v : U10) := writes_congr cfg target wpDone vld val sel v
  have others (j : Channel) (hj : j ≠ k) : t.cacheVld[j] = s.cacheVld[j] ∧ t.cacheVal[j] = s.cacheVal[j] :=
    ((exec_effect run).cache j).resolve_right fun same => hj (maybeWriteOf_injective same).symm
  by_cases writes : ∃ v, s.Writes k v
  · obtain ⟨v, w⟩ := writes
    cases w.exec_maybeWriteOf.symm.trans run
    cases ((alike v).1 w).exec_maybeWriteOf.symm.trans run'
    refine ⟨⟨valueEvents s.cfg k v, rfl, by rw [cfg]; rfl⟩, ?_, ?_, others⟩
    · rw [cacheWrite_cacheVld_self, cacheWrite_cacheVld_self]
    · rw [cacheWrite_cacheVal_self, cacheWrite_cacheVal_self]
  · rw [not_exists] at writes
    obtain ⟨trace, cacheVld, cacheVal⟩ := exec_maybeWriteOf_unwritten writes run
    obtain ⟨trace', cacheVld', cacheVal'⟩ :=
      exec_maybeWriteOf_unwritten (fun v => (alike v).not.1 (writes v)) run'
    refine ⟨⟨[], by rw [trace, List.append_nil], by rw [trace', List.append_nil]⟩, ?_, ?_, others⟩
    · rw [cacheVld, cacheVld', vld]
    · rw [cacheVal, cacheVal', val]

end Sys2Proof.Machine
end

section
/-! The controller (spec/43_controller.md): what its step does where one is enabled, where it is suspended and where the
operation raises (R201, R204, R217), what it emits (R212), how `st` moves (R210), and two runs, the boot and a
conversion. -/

namespace Sys2Proof.Machine

variable {s s0 t u : State} {i : Instr} {k : Channel} {n : Nat}

/-! ### The four operations of the controller and the suspended controller -/

/-- Settles O32: both operations arm their latch, emit their pulse and enter their wait. -/
theorem armingEnablesAndPulses : Obligations.ArmingEnablesAndPulses :=
  fun _ => ⟨rfl, rfl⟩

/-- Settles O33: both operations take their latch and leave their wait. -/
theorem takingAnEventIsOneShot : Obligations.TakingAnEventIsOneShot :=
  fun _ => ⟨rfl, rfl⟩

/-- Settles O10: by what a step does where the controller is suspended. -/
theorem suspendedControllerChangesNothing : Obligations.SuspendedControllerChangesNothing :=
  fun _ _ turn suspended => step_suspended turn suspended

theorem controllerStep_answers_next (s : State) : ∃ t, controllerStep s = .next t := by
  cases enabled : s.enabled with
  | false => exact ⟨s, controllerStep_suspended enabled⟩
  | true =>
    obtain ⟨u, run⟩ := exec_answers_next (fetch s) s
    exact ⟨_, controllerStep_enabled enabled run⟩

/-- Settles O12: whichever agent has the turn answers a next state. -/
theorem everyStepAnswersANextState : Obligations.EveryStepAnswersANextState := by
  intro s
  rcases turn_cases s with ⟨s0, turn⟩ | ⟨e, s0, turn⟩
  · rw [step_controllerTurn turn]
    exact controllerStep_answers_next s0
  · exact ⟨_, step_environmentTurn turn⟩

/-! ### An enabled step -/

/-- R201: no step is enabled once a fault is recorded. -/
theorem State.fault_of_enabled (enabled : s.enabled = true) : s.fault = none := by
  cases hf : s.fault with
  | none => rfl
  | some f => simp [State.enabled_of_fault hf] at enabled

/-- R201: outside the two wait phases nothing but a fault suspends the controller. -/
theorem State.enabled_of_not_wait (noFault : s.fault = none) (adc : s.phase ≠ phaseWaitAdc)
    (tmr : s.phase ≠ phaseWaitTmr) : s.enabled = true :=
  (State.enabled_iff noFault).2 ⟨fun wait => absurd wait adc, fun wait => absurd wait tmr⟩

/-- R201: an enabled step whose operation raises nothing runs it and moves the phase on. -/
theorem step_of_fetch (turn : ControllerTurn s s0) (enabled : s0.enabled = true) (selected : fetch s0 = i)
    (run : exec i s0 = .next u) (clean : u.fault = none) : step s = .next { u with phase := nextPhase s0.phase } := by
  subst selected
  rw [step_controllerTurn turn, controllerStep_enabled enabled run, if_pos clean]

/-- R201: every way an enabled step can end. -/
theorem step_enabled_cases (turn : ControllerTurn s s0) (enabled : s0.enabled = true) (h : step s = .next t) :
    ∃ u, exec (fetch s0) s0 = .next u ∧
      ((u.fault = none ∧ t = { u with phase := nextPhase s0.phase }) ∨ (u.fault ≠ none ∧ t = u)) := by
  obtain ⟨u, run⟩ := exec_answers_next (fetch s0) s0
  refine ⟨u, run, ?_⟩
  rw [step_controllerTurn turn, controllerStep_enabled enabled run] at h
  injection h with h
  split at h
  next clean => exact .inl ⟨clean, h.symm⟩
  next raised => exact .inr ⟨raised, h.symm⟩

/-! ### A step that raises -/

/-- R250: an operation that raises leaves its fault behind and nothing else. -/
theorem Effect.eq_faulted (effect : Effect s i t) (noFault : s.fault = none) (raised : t.fault ≠ none) :
    ∃ f, t = s.faulted f := by
  cases effect with
  | raised _ f => exact ⟨f, rfl⟩
  | _ => exact absurd noFault raised

/-- Settles O15: the step answers the state it began with, with the fault recorded. -/
theorem raisingStepKeepsItsPhase : Obligations.RaisingStepKeepsItsPhase := by
  intro s s0 t turn enabled h raised
  obtain ⟨u, run, ⟨clean, rfl⟩ | ⟨-, rfl⟩⟩ := step_enabled_cases turn enabled h
  · exact absurd clean raised
  · obtain ⟨f, rfl⟩ := (exec_effect run).eq_faulted (State.fault_of_enabled enabled) raised
    exact ⟨rfl, rfl, rfl⟩

theorem State.faulted_of_noFault (noFault : s.fault = none) (f : Fault) : s.faulted f = { s with fault := some f } := by
  rw [State.faulted, noFault, Option.none_or]

/-- R217: a step at a reserved phase is enabled, and its operation raises. -/
theorem step_reserved (turn : ControllerTurn s s0) (noFault : s0.fault = none) (reserved : 0xD ≤ s0.phase.toNat) :
    step s = .next { s0 with fault := some (.badPhase s0.phase) } := by
  have notAdc : s0.phase ≠ phaseWaitAdc := fun hp => absurd reserved (by rw [hp]; decide)
  have notTmr : s0.phase ≠ phaseWaitTmr := fun hp => absurd reserved (by rw [hp]; decide)
  have run := exec_fetch_reserved reserved
  rw [State.faulted_of_noFault noFault] at run
  rw [step_controllerTurn turn, controllerStep_enabled (State.enabled_of_not_wait noFault notAdc notTmr) run,
    if_neg (Option.some_ne_none _)]

/-- Settles O34: the reserved operations raise whatever the state, and the step at their phases runs them. -/
theorem reservedPhaseRaises : Obligations.ReservedPhaseRaises :=
  fun _ => ⟨rfl, fun _ => rfl, fun _ turn noFault reserved => step_reserved turn noFault reserved⟩

/-! ### What a step emits -/

theorem State.Writes.writeEvents_eq {v : U10} (w : s.Writes k v) : writeEvents k s = valueEvents s.cfg k v := by
  simp only [writeEvents, w.held, w.isChanged, if_true]

theorem writeEvents_of_not_writes (unprotected : s.wpDone[k] = true) (idle : s.sel = none)
    (unwritten : ∀ v, ¬ s.Writes k v) : writeEvents k s = [] := by
  unfold writeEvents
  split
  · rfl
  next v held => exact if_neg fun isChanged => unwritten v ⟨held, unprotected, isChanged, idle⟩

/-- R174, R212: with the write protect disabled and no channel selected a `WRITEk` emits what its gate says. -/
theorem exec_maybeWriteOf_trace (unprotected : s.wpDone[k] = true) (idle : s.sel = none)
    (run : exec (maybeWriteOf k) s = .next t) : t.trace = s.trace ++ writeEvents k s := by
  by_cases writes : ∃ v, s.Writes k v
  · obtain ⟨v, w⟩ := writes
    cases w.exec_maybeWriteOf.symm.trans run
    rw [w.writeEvents_eq]
    rfl
  · rw [not_exists] at writes
    obtain ⟨trace, -, -⟩ := exec_maybeWriteOf_unwritten writes run
    rw [writeEvents_of_not_writes unprotected idle writes, trace, List.append_nil]

theorem Runnable.exec_maybeWriteOf_trace (r : Runnable s) (k : Channel) (hp : s.phase.toNat = 7 + k.val)
    (run : exec (maybeWriteOf k) s = .next t) : t.trace = s.trace ++ writeEvents k s :=
  Machine.exec_maybeWriteOf_trace (r.writeReady k hp).1 r.idle run

/-- R212: in a runnable state the operation the phase selects emits the events of its phase. -/
theorem Runnable.exec_fetch_trace (r : Runnable s) (run : exec (fetch s) s = .next t) :
    t.trace = s.trace ++ phaseEvents s := by
  have code := encodePhase_fetch s
  have toNat {p : PhaseCode} (hp : some p = some s.phase) : s.phase.toNat = p.toNat := by
    rw [Option.some.inj hp]
  unfold fetch at run code
  unfold phaseEvents
  generalize decodePhase s.phase = i at run code
  cases i with
  | disableWp k =>
    rw [exec, execDisableWp, disableWp_idle r.idle, Res.outcome_done] at run
    cases run
    rfl
  | requestSample | armTimer =>
    cases run
    rfl
  | takeSample | takeTimer | reservedD | reservedEF =>
    cases run
    exact (List.append_nil _).symm
  | bankEval =>
    obtain ⟨v, held⟩ := Option.isSome_iff_exists.1 (r.sampleHeld (Option.some.inj code).symm)
    rw [exec, execBankEval, bankEval_done held, Res.outcome_done] at run
    cases run
    exact (List.append_nil _).symm
  | maybeWrite0 => exact r.exec_maybeWriteOf_trace 0 (toNat code) run
  | maybeWrite1 => exact r.exec_maybeWriteOf_trace 1 (toNat code) run
  | maybeWrite2 => exact r.exec_maybeWriteOf_trace 2 (toNat code) run
  | maybeWrite3 => exact r.exec_maybeWriteOf_trace 3 (toNat code) run
  | _ => cases code

/-- Settles O40: the step's trace is its operation's, whether the phase moves on after it or not. -/
theorem controllerStepEmitsItsEvents : Obligations.ControllerStepEmitsItsEvents := by
  intro s s0 t inv turn enabled h
  obtain ⟨u, run, ending⟩ := step_enabled_cases turn enabled h
  have emitted := (turn.inv inv).runnable.exec_fetch_trace run
  rcases ending with ⟨-, rfl⟩ | ⟨-, rfl⟩
  · exact emitted
  · exact emitted

/-! ### How `st` moves -/

/-- R210, R21: the successor table keeps `st` or moves it round its cycle. -/
theorem updateStateOf_nextPhase {p : PhaseCode} (legal : p.toNat ≤ 12) :
    updateStateOf (nextPhase p) = updateStateOf p ∨
    (updateStateOf p = some .sleeping ∧ updateStateOf (nextPhase p) = some .waitingForRead) ∨
    (updateStateOf p = some .waitingForRead ∧ updateStateOf (nextPhase p) = some .writingValues) ∨
    (updateStateOf p = some .writingValues ∧ updateStateOf (nextPhase p) = some .sleeping) := by
  revert p; decide

theorem ControllerTurn.phase_eq (turn : ControllerTurn s s0) : s0.phase = s.phase := by
  obtain ⟨rest, rfl⟩ := turn.fields
  rfl

theorem EnvironmentTurn.phase_eq {e : EnvEvent} (turn : EnvironmentTurn s e s0) : s0.phase = s.phase := by
  obtain ⟨rest, rfl⟩ := turn.fields
  rfl

/-- Settles O41: an enabled step moves the phase to its successor, `RESET` to 0, and nothing else moves it. -/
theorem updateStateIsAStrictCycle : Obligations.UpdateStateIsAStrictCycle := by
  intro s t inv h
  rcases step_cases h with ⟨s0, turn, -, rfl⟩ | ⟨s0, u, turn, -, run, clean, rfl⟩ | ⟨s0, turn, -, run, raised⟩ |
    ⟨e, s0, turn, rfl⟩
  case inl => exact .inl (congrArg updateStateOf turn.phase_eq)
  case inr.inl =>
    rw [State.st, State.st, turn.phase_eq]
    rcases updateStateOf_nextPhase inv.legalPhase with kept | woken | read | written
    · exact .inl kept
    · exact .inr (.inl woken)
    · exact .inr (.inr (.inl read))
    · exact .inr (.inr (.inr (.inl written)))
  case inr.inr.inl => exact absurd ((turn.inv inv).runnable.exec_fetch_fault run) raised
  case inr.inr.inr =>
    by_cases he : e = .reset
    · subst he
      exact .inr (.inr (.inr (.inr ⟨s0, turn, rfl⟩)))
    · exact .inl (congrArg updateStateOf ((deliver_phase s0 he).trans turn.phase_eq))

/-! ### Runs -/

theorem run_succ_of_next {M : Host.Core} {s t : M.State} (h : M.step s = .next t) : M.run (n + 1) s = M.run n t := by
  rw [Host.Core.run, h]

theorem run_succ_of_step (h : step s = .next t) :
    Host.Core.run Sys2Proof.core (n + 1) s = Host.Core.run Sys2Proof.core n t :=
  run_succ_of_next h

/-- R21, R202: the boot phases, as the decoder reads them; none is a wait. -/
theorem decodePhase_boot (k : Channel) :
    decodePhase (BitVec.ofNat 4 k.val) = .disableWp k ∧ BitVec.ofNat 4 k.val ≠ phaseWaitAdc ∧
    BitVec.ofNat 4 k.val ≠ phaseWaitTmr := by
  revert k; decide

/-- R202: a boot step sends its channel's frame and moves the phase on. -/
theorem step_disableWp (turn : ControllerTurn s s0) (noFault : s0.fault = none) (idle : s0.sel = none)
    (hp : s0.phase = BitVec.ofNat 4 k.val) : step s = .next
      { s0.afterBytes (frameEvents k (wpWord s0.cfg)) (s0.cfg.wpByte1.getLsbD 0) with
        wpDone := s0.wpDone.set k true, phase := nextPhase s0.phase } := by
  obtain ⟨selected, notAdc, notTmr⟩ := decodePhase_boot k
  rw [← hp] at selected notAdc notTmr
  have run := congrArg Res.outcome (disableWp_idle idle k)
  exact step_of_fetch turn (State.enabled_of_not_wait noFault notAdc notTmr) selected run noFault

/-- Settles O52: the four boot phases, each with its own channel's frame. -/
theorem bootSendsTheFourWpFrames : Obligations.BootSendsTheFourWpFrames := by
  intro cfg
  refine Eq.trans (run_succ_of_step (step_disableWp (k := 0) (.inl ⟨rfl, rfl⟩) rfl rfl rfl)) ?_
  refine Eq.trans (run_succ_of_step (step_disableWp (k := 1) (.inl ⟨rfl, rfl⟩) rfl rfl rfl)) ?_
  refine Eq.trans (run_succ_of_step (step_disableWp (k := 2) (.inl ⟨rfl, rfl⟩) rfl rfl rfl)) ?_
  refine Eq.trans (run_succ_of_step (step_disableWp (k := 3) (.inl ⟨rfl, rfl⟩) rfl rfl rfl)) ?_
  rfl

/-- R203: the step at `SLEEP`. -/
theorem step_requestSample (turn : ControllerTurn s s0) (noFault : s0.fault = none) (hp : s0.phase = 0x4) :
    step s = .next { ({ s0 with adc := s0.adc.arm }).pulseAdcStart with phase := phaseWaitAdc } := by
  have enabled := State.enabled_of_not_wait noFault (by rw [hp]; decide) (by rw [hp]; decide)
  have selected : fetch s0 = .requestSample := by rw [fetch, hp]; rfl
  have next : nextPhase s0.phase = phaseWaitAdc := by rw [hp]; rfl
  rw [step_of_fetch turn enabled selected rfl noFault, next]

/-- R204, R205: the step at `WAIT_ADC`, once a completion is pending. -/
theorem step_takeSample (turn : ControllerTurn s s0) (noFault : s0.fault = none) (hp : s0.phase = phaseWaitAdc)
    (pending : s0.adc.pend = true) :
    step s = .next { s0 with adc := s0.adc.take, sample := some (clampSample s0.adcData), phase := 0x6 } := by
  have enabled := (State.enabled_iff noFault).2 ⟨fun _ => pending, fun wait => absurd (hp.symm.trans wait) (by decide)⟩
  have selected : fetch s0 = .takeSample := by rw [fetch, hp]; rfl
  have next : nextPhase s0.phase = 0x6 := by rw [hp]; rfl
  rw [step_of_fetch turn enabled selected rfl noFault, next]

/-- R242: a completion, wherever the controller stands. -/
theorem step_now_adcDone {d : S16} {rest : List Turn} (turns : s.turns = .now (.adcDone d) :: rest) :
    step s = .next { s with adcData := d, adc := s.adc.latch, turns := rest } :=
  step_environmentTurn (.inl ⟨rest, turns, rfl⟩)

/-- R203, R205, R244: the four turns around a conversion, from `SLEEP`. The request arms the latch afresh, whatever the
early completion left in it; the later completion sets it, and the wait takes the word that came with that one. -/
theorem run_conversion {early d : S16} {rest : List Turn} (noFault : s.fault = none) (hp : s.phase = 0x4)
    (turns : s.turns = .now (.adcDone early) :: .controller :: .now (.adcDone d) :: .controller :: rest) :
    Host.Core.run Sys2Proof.core 4 s = .next { s with
      phase := 0x6, sample := some (clampSample d), adc := { ie := false, pend := false }, adcStart := false
      adcData := d, trace := s.trace ++ [.adcStart], turns := rest } := by
  refine Eq.trans (run_succ_of_step (step_now_adcDone turns)) ?_
  refine Eq.trans (run_succ_of_step (step_requestSample (.inr (.inl ⟨_, rfl, rfl⟩)) noFault hp)) ?_
  refine Eq.trans (run_succ_of_step (step_now_adcDone rfl)) ?_
  refine Eq.trans (run_succ_of_step (step_takeSample (.inr (.inl ⟨_, rfl, rfl⟩)) noFault rfl rfl)) ?_
  rfl

/-- Settles O53: the four turns end in the state `run_conversion` gives. -/
theorem completionAfterRequestIsTaken : Obligations.CompletionAfterRequestIsTaken :=
  fun _ _ _ _ inv hp turns => ⟨_, run_conversion inv.noFault hp turns, rfl, rfl, rfl, rfl, rfl⟩

end Sys2Proof.Machine
end

section
/-! The events of the environment and how they come in (spec/60_exceptions.md): no run raises a fault (R250), what an event
writes (R242, R243), the order of two at once (R248), and the synchronizers in front of them (R241). -/

namespace Sys2Proof.Machine

variable {s : State} {level : Bool} {stages n : Nat}

/-! ### Runs -/

/-- Whatever the schedule holds, a run from a state of the invariant goes on and ends in one. -/
theorem Inv.run (inv : Inv s) (n : Nat) : ∃ t : State, Host.Core.run Sys2Proof.core n s = .next t ∧ Inv t := by
  induction n generalizing s with
  | zero => exact ⟨s, rfl, inv⟩
  | succ n ih =>
    obtain ⟨u, hu⟩ := everyStepAnswersANextState s
    rw [run_succ_of_step hu]
    exact ih (stepKeepsTheInvariant s u inv hu)

/-- Settles O39: power-on meets the invariant under every schedule, and the invariant holds no fault. -/
theorem noRunRaisesAFault : Obligations.NoRunRaisesAFault := by
  intro cfg turns n
  obtain ⟨t, run, inv⟩ := ((inv_resetOf cfg).withTurns turns).run n
  exact ⟨t, run, inv.noFault⟩

/-! ### What an event writes -/

/-- Settles O48: the word always changes; the latch is set where its source is enabled and stays where it is not. -/
theorem eventsAreLatchedOnlyWhileEnabled : Obligations.EventsAreLatchedOnlyWhileEnabled := by
  intro s d
  refine ⟨fun enabled => ?_, fun disabled => ?_, fun enabled => ?_, fun disabled => ?_⟩
  · rw [deliver, adcDoneEvent, IrqLatch.latch_enabled enabled]
  · rw [deliver, adcDoneEvent, IrqLatch.latch_disabled disabled]
  · rw [deliver, tmrExpiredEvent, IrqLatch.latch_enabled enabled]
  · rw [deliver, tmrExpiredEvent, IrqLatch.latch_disabled disabled]

/-- Settles O49: the two events read and write disjoint parts of the state. -/
theorem eventOrderDoesNotShow : Obligations.EventOrderDoesNotShow :=
  fun _ _ => rfl

/-! ### One synchronizer with its input held -/

/-- A clock of a chain: the input comes before the others and the last one drops out. -/
theorem dropLast_cons_take {α : Type} {a : α} {l : List α} (h : n ≤ l.length) :
    (a :: l.take n).dropLast = (a :: l).take n := by
  have length : ((a :: l).take (n + 1)).length = n + 1 := List.length_take_of_le (Nat.succ_le_succ h)
  rw [← List.take_succ_cons, List.dropLast_eq_take, length, List.take_take, Nat.add_sub_cancel, Nat.min_eq_left n.le_succ]

/-- After `n` clocks the held level has come to the first `n` flops, and the others hold their reset value. -/
theorem Synchronizer.held_reset_stages (level : Bool) (stages n : Nat) :
    (Synchronizer.held level n (Synchronizer.reset stages)).stages =
      (List.replicate n level ++ List.replicate stages false).take stages := by
  induction n with
  | zero => simp [Synchronizer.held, Synchronizer.reset]
  | succ n ih =>
    rw [Synchronizer.held, Synchronizer.clock, ih, dropLast_cons_take (by simp)]
    rfl

/-- The synchronized signal takes the held level at clock `stages`. -/
theorem Synchronizer.held_reset_output (h : 1 ≤ stages) (n : Nat) :
    (Synchronizer.held level n (Synchronizer.reset stages)).output = (level && decide (stages ≤ n)) := by
  have last : stages - 1 < stages := by omega
  rw [Synchronizer.output, held_reset_stages, List.getLast?_eq_getElem?, List.length_take_of_le (by simp),
    List.getElem?_take_of_lt last]
  by_cases arrived : stages ≤ n
  · rw [List.getElem?_append_left (by rw [List.length_replicate]; omega), List.getElem?_replicate, if_pos (by omega)]
    simp [arrived]
  · rw [List.getElem?_append_right (by rw [List.length_replicate]; omega), List.getElem?_replicate, if_pos]
    · simp [arrived]
    · rw [List.length_replicate]; omega

/-- The edge-detect flop is one clock behind the synchronized signal. -/
theorem Synchronizer.held_reset_edge (h : 1 ≤ stages) (n : Nat) :
    (Synchronizer.held level n (Synchronizer.reset stages)).edge = (level && decide (stages < n)) := by
  cases n with
  | zero => simp [Synchronizer.held, Synchronizer.reset]
  | succ n =>
    rw [Synchronizer.held, Synchronizer.clock, held_reset_output h]
    simp

/-- Settles O56: the signal is up from clock `stages` on and the edge-detect flop from the clock after. -/
theorem heldLevelGivesOneEvent : Obligations.HeldLevelGivesOneEvent := by
  intro stages n h
  rw [Synchronizer.rising, Synchronizer.rising, Synchronizer.held_reset_output h, Synchronizer.held_reset_edge h,
    Synchronizer.held_reset_output h]
  refine ⟨?_, Bool.false_and _⟩
  simp only [Bool.true_and, Bool.and_eq_true, Bool.not_eq_true', decide_eq_true_eq, decide_eq_false_iff_not]
  omega

/-! ### A clock of both synchronizers -/

/-- R241: `s` with both chains clocked, before its edges enter the schedule. -/
def State.syncsClocked (p : PortLevels) (s : State) : State :=
  { s with adcSync := s.adcSync.clock p.adcDone, tmrSync := s.tmrSync.clock p.tmrExpired }

theorem map_now_risingEvents (z y : Synchronizer) (word : S16) :
    (risingEvents z y word).map Turn.now =
      (if z.rising = true then [.now (.adcDone word)] else []) ++ (if y.rising = true then [.now .tmrExpired] else []) := by
  rw [risingEvents, List.map_append, apply_ite (List.map Turn.now), apply_ite (List.map Turn.now)]
  rfl

/-- R241: a clock is the shift of the chains, and the schedule grows by the edges. -/
theorem State.clockPorts_eq (p : PortLevels) (s : State) :
    s.clockPorts p = { s.syncsClocked p with turns := s.turns ++
      (risingEvents (s.adcSync.clock p.adcDone) (s.tmrSync.clock p.tmrExpired) p.adcData).map .now } :=
  rfl

/-- Where the schedule was empty the edges are the next turns. -/
theorem State.clockPorts_of_no_turns (empty : s.turns = []) (p : PortLevels) :
    s.clockPorts p = { s.syncsClocked p with turns :=
      (risingEvents (s.adcSync.clock p.adcDone) (s.tmrSync.clock p.tmrExpired) p.adcData).map .now ++ s.turns } := by
  rw [State.clockPorts_eq, empty, List.nil_append, List.append_nil]

/-- R72: an event put before the schedule is the next step, and leaves the schedule as it was. -/
theorem step_now_cons (e : EnvEvent) (s : State) :
    step { s with turns := .now e :: s.turns } = .next (deliver e s) :=
  step_environmentTurn (.inl ⟨s.turns, rfl, rfl⟩)

/-- R72: an event neither reads nor writes whose turn it is. -/
theorem deliver_withTurns (e : EnvEvent) (s : State) (turns : List Turn) :
    deliver e { s with turns := turns } = { deliver e s with turns := turns } := by
  cases e <;> rfl

theorem deliver_turns (e : EnvEvent) (s : State) : (deliver e s).turns = s.turns := by
  cases e <;> rfl

/-- R241: a clock keeps the depth of both chains, which is all the invariant says of them. -/
theorem Inv.clockPorts (inv : Inv s) (p : PortLevels) : Inv (s.clockPorts p) :=
  { inv with
    syncDepth := ⟨(Synchronizer.clock_length _ _).trans inv.syncDepth.1,
      (Synchronizer.clock_length _ _).trans inv.syncDepth.2⟩ }

/-- R72: two events put before the schedule are the next two steps. -/
theorem run_two_now_cons (e e' : EnvEvent) (s : State) :
    Host.Core.run Sys2Proof.core 2 { s with turns := .now e :: .now e' :: s.turns } =
      .next (deliver e' (deliver e s)) := by
  have first : step { s with turns := .now e :: .now e' :: s.turns } =
      .next { deliver e s with turns := .now e' :: (deliver e s).turns } := by
    rw [deliver_turns, ← deliver_withTurns]
    exact step_now_cons e { s with turns := .now e' :: s.turns }
  rw [run_succ_of_step first, run_succ_of_step (step_now_cons e' (deliver e s))]
  rfl

/-- Settles O57: the edges of the clock, where they are the only turns, are the next steps. -/
theorem clockDeliversTheRisingEdges : Obligations.ClockDeliversTheRisingEdges := by
  intro s p z y shifted
  have clocked := State.clockPorts_eq p s
  rw [map_now_risingEvents, ← List.append_assoc] at clocked
  have scheduled (empty : s.turns = []) := State.clockPorts_of_no_turns empty p
  simp only [map_now_risingEvents] at scheduled
  refine ⟨clocked, fun empty rises rises' => ?_, fun empty rises flat => ?_, fun empty flat rises => ?_,
    fun flat flat' => ?_, fun inv => inv.clockPorts p⟩
  · rw [scheduled empty, if_pos rises, if_pos rises']
    exact run_two_now_cons _ _ shifted
  · rw [scheduled empty, if_pos rises, if_neg (ne_true_of_eq_false flat)]
    exact step_now_cons _ shifted
  · rw [scheduled empty, if_neg (ne_true_of_eq_false flat), if_pos rises]
    exact step_now_cons _ shifted
  · rw [clocked, if_neg (ne_true_of_eq_false flat), if_neg (ne_true_of_eq_false flat'), List.append_nil, List.append_nil]
    rfl

end Sys2Proof.Machine
end

section
/-! Reset (spec/70_reset_and_hazards.md): the environment's `RESET` is the power-on state, beside what it keeps (R280). -/

namespace Sys2Proof.Machine

/-- Settles O51: delivering `RESET` is the reset event itself (R72), which reads of the state before only the configuration
and what it keeps; `test_reset_event` runs it from a faulted state. -/
theorem resetEventRestoresTheResetState : Obligations.ResetEventRestoresTheResetState :=
  fun _ => rfl

end Sys2Proof.Machine
end
